-- ==== Sys2Proof/Word.lean ====
section
/-! DEFINITION. The word types of the MTCP engine (R20, R34, R84): 32-bit registers, 16-bit windows and
control fields, bytes (octets) on the wire and in host memory. -/

namespace Sys2Proof

/-- A 32-bit register, operand, sequence number or endpoint handle (R23, R31, R38). -/
abbrev Word := BitVec 32

/-- A 16-bit header field: the control bits or a window (R84, D9). -/
abbrev Half := BitVec 16

/-- One octet of a datagram or of host memory (R8, R60). -/
abbrev Byte := BitVec 8

end Sys2Proof
end

