-- ==== Sys2Proof/Syntax.lean ====
section
/-! DEFINITION. The commands of the MTCP engine: one constructor per row of spec/opcode_table.json (R81).

A command word holds an opcode and nothing else that is decoded (R80): the operands are ARG0 and ARG1, which the
issue latches (R82), so no constructor has a field. -/

namespace Sys2Proof

/-- The eleven commands, in the table's order. -/
inductive Instr where
  /-- OPEN, op 0x01 (R124). -/
  | openConn
  /-- CONNECT, op 0x02 (R161). -/
  | connect
  /-- LISTEN, op 0x03 (R160). -/
  | listen
  /-- ACCEPT, op 0x04 (R164). -/
  | accept
  /-- SEND, op 0x05 (R200). -/
  | send
  /-- RECV, op 0x06 (R240). -/
  | recv
  /-- SHUTDOWN, op 0x07 (R170). -/
  | shutdown
  /-- BUILD_HEADER, op 0x10 (R147). -/
  | buildHeader
  /-- SEAL, op 0x11 (R148). -/
  | sealSegment
  /-- VERIFY, op 0x12 (R149). -/
  | verify
  /-- CLASSIFY, op 0x13 (R150). -/
  | classify
  deriving DecidableEq, Repr

end Sys2Proof
end

