-- ==== Sys2Proof/Config.lean ====
section
/-! DEFINITION. The implementation parameters of R5 and what the machine leaves to the instance.

The parameters are plain data, a record `Params` that the state carries as its CFG registers (R36), so every
statement about every state is about every choice of them. `Config.params` is the choice the reset state has: it is
made of constants without a body, so nothing can be proved about a value beyond the constraints of R5 and R6. -/

namespace Sys2Proof

/-! ### CHECKSUM and its constraint (R5, R6) -/

/-- `b` with bit `p` flipped: bit `p % 8` of byte `p / 8`. -/
def flipBit (b : List Byte) (p : Nat) : List Byte := b.modify (p / 8) fun x => x ^^^ BitVec.twoPow 8 (p % 8)

/-- R5: "any single-bit change of the input changes the output". -/
def SingleBitSensitive (ck : List Byte → Word) : Prop := ∀ b p, p < 8 * b.length → ck (flipBit b p) ≠ ck b

/-- The functions R5 allows as CHECKSUM: pure functions of a byte sequence with the single-bit property. A function
without it is no value of this type, as R6 puts it outside the spec. -/
structure ChecksumFn where
  eval : List Byte → Word
  sensitive : SingleBitSensitive eval

/-- The exclusive or of the bytes: a function that shows that `ChecksumFn` has a value, and serves nothing else. -/
def xorBytes : List Byte → Word
  | [] => 0
  | x :: b => x.setWidth 32 ^^^ xorBytes b

theorem xorBytes_modify (m : Byte) (b : List Byte) (i : Nat) (h : i < b.length) :
    xorBytes (b.modify i fun x => x ^^^ m) = xorBytes b ^^^ m.setWidth 32 := by
  induction b generalizing i with
  | nil => simp at h
  | cons x b ih =>
    cases i with
    | zero =>
      simp only [List.modify_zero_cons, xorBytes, BitVec.setWidth_xor, BitVec.xor_assoc,
        BitVec.xor_comm (m.setWidth 32)]
    | succ i => simp only [List.modify_succ_cons, xorBytes, ih i (by simpa using h), BitVec.xor_assoc]

theorem xorBytes_singleBitSensitive : SingleBitSensitive xorBytes := by
  intro b p hp h
  rw [flipBit, xorBytes_modify _ _ _ (by omega)] at h
  have h0 : (BitVec.twoPow 8 (p % 8)).setWidth 32 = 0#32 := by
    simpa [← BitVec.xor_assoc] using congrArg (xorBytes b ^^^ ·) h
  have h1 := congrArg (fun x => x.getLsbD (p % 8)) h0
  have hm : p % 8 < 8 := Nat.mod_lt _ (by decide)
  simp [BitVec.getLsbD_twoPow] at h1
  omega

/-- Which function of byte sequences CHECKSUM is (R5, D8). The spec leaves CHECKSUM open.
`parameter` is that open function (`Config.checksum`, a constant without a body). `crc32` names the instance the spec's test
vectors use (spec/95_test_vectors.md section 1.2), so that those vectors can be run. Log entry 1. -/
inductive Checksum where
  | parameter
  | crc32
  deriving DecidableEq, Repr

/-- CHECKSUM before it is told that `ChecksumFn` has a value. It has no body. -/
opaque Config.checksumFn [Inhabited ChecksumFn] : ChecksumFn

/-- CHECKSUM, the open integrity code of R5: a function with the single-bit property, of which nothing else can be
proved (log entry 1). `xorBytes` only shows that there is such a function. -/
def Config.checksum : ChecksumFn := @Config.checksumFn ⟨xorBytes, xorBytes_singleBitSensitive⟩

/-- The parameters of R5, each at the width of its CFG register (R34). -/
structure Params where
  /-- MSS, the maximum segment payload size in bytes. -/
  mss : Word
  /-- INIT_WINDOW. -/
  initWindow : Half
  /-- INIT_CWND. -/
  initCwnd : Word
  /-- INIT_SSTHRESH. -/
  initSsthresh : Word
  /-- ACK_TIMEOUT_US, read by the Transport only (D62). -/
  ackTimeoutUs : Word
  /-- MAX_RETRIES; 0 means unbounded (D22). -/
  maxRetries : Word
  /-- MAX_DGRAM, the longest datagram the Transport delivers (R272, R275). -/
  maxDgram : Word
  /-- CHECKSUM. -/
  checksum : Checksum
  deriving DecidableEq, Repr

/-- MSS - 1: every legal MSS (1 to 65535) and no other is one more than a value of this type (R5, D63). -/
opaque Config.mssIndex : Fin 65535
/-- INIT_WINDOW - 1 (1 to 65535). -/
opaque Config.initWindowIndex : Fin 65535
/-- INIT_CWND - 1 (INIT_CWND is at least 1). -/
opaque Config.initCwndIndex : Fin 4294967295
/-- INIT_SSTHRESH - 1 (INIT_SSTHRESH is at least 1). -/
opaque Config.initSsthreshIndex : Fin 4294967295
/-- ACK_TIMEOUT_US - 1 (ACK_TIMEOUT_US is at least 1). -/
opaque Config.ackTimeoutIndex : Fin 4294967295
/-- MAX_RETRIES (any value). -/
opaque Config.maxRetries : Word
/-- MAX_DGRAM before its lower bound 32 + MSS is applied. -/
opaque Config.maxDgramWish : Word

/-- The parameters of the instance that `State.reset` describes (log entry 2). Every combination the constraints of
R5 allow, and no other, is a value of this record: the numbers by the types of the constants above, CHECKSUM by the
type `ChecksumFn`. -/
def Config.params : Params where
  mss := BitVec.ofNat 32 (Config.mssIndex.val + 1)
  initWindow := BitVec.ofNat 16 (Config.initWindowIndex.val + 1)
  initCwnd := BitVec.ofNat 32 (Config.initCwndIndex.val + 1)
  initSsthresh := BitVec.ofNat 32 (Config.initSsthreshIndex.val + 1)
  ackTimeoutUs := BitVec.ofNat 32 (Config.ackTimeoutIndex.val + 1)
  maxRetries := Config.maxRetries
  maxDgram := BitVec.ofNat 32 (max Config.maxDgramWish.toNat (32 + (Config.mssIndex.val + 1)))
  checksum := .parameter

end Sys2Proof
end

