-- ==== Sys2Proof/Machine/Ports.lean ====
section
/-! DEFINITION. What crosses the engine's boundary: the host's accesses, the Transport's events, the datagrams handed
to the Transport, and the byte ranges the host has lent (R60, R62, R270, R272). Plain data. -/

namespace Sys2Proof.Machine

/-- An RX event (R272): one datagram with its source handle, or the end of the Transport's bounded wait. -/
inductive RxEvent where
  | datagram (b : List Byte) (src : Word)
  | timedOut
  deriving DecidableEq, Repr

/-- A datagram handed to the Transport by `TX(dest, b)` (R13, R270). -/
structure Tx where
  dest : Word
  bytes : List Byte
  deriving DecidableEq, Repr

/-- The two kinds of host-memory access of R62. -/
inductive Access where
  | read
  | write
  deriving DecidableEq, Repr

/-- A byte range `[base, base + len)` that the host has lent to the engine for one kind of access (R62). -/
structure LentRange where
  base : Nat
  len : Nat
  kind : Access
  deriving DecidableEq, Repr

/-- One event of the serialised order of steps (R297): an access by the host, an RX event, or hardware reset. -/
inductive Input where
  /-- A register-space write of `size` bytes at offset `off` (R61). -/
  | regWrite (off size : Nat) (v : Word)
  /-- A register-space read of `size` bytes at offset `off` (R61). -/
  | regRead (off size : Nat)
  /-- The host writes its own memory (R74). -/
  | memWrite (addr : Nat) (bs : List Byte)
  /-- The host reads its own memory (R74). -/
  | memRead (addr n : Nat)
  /-- The host states which byte ranges it lends to the engine from now on (R62). -/
  | lend (ranges : List LentRange)
  /-- The Transport delivers an RX event (R273). -/
  | rx (e : RxEvent)
  /-- The reset input is asserted (R321). -/
  | hwReset
  deriving DecidableEq, Repr

/-- The registers of the register space, by the names of R34; `reserved` is every other word offset (R44). -/
inductive Reg where
  | id | cfgMss | cfgInitWindow | cfgInitCwnd | cfgInitSsthresh | cfgAckTimeoutUs | cfgMaxRetries
  | cmd | arg0 | arg1 | result | status | ctrl
  | seqNumber | ackNumber | cwnd | ssthresh | window | peerAddr | peerFinSeq
  | txDupCount | rxDupCount | timeoutCount | halveCount
  | roundStart | txDelivered | rxWritten | rxTotal | rxExpectedSegs
  | reserved
  deriving DecidableEq, Repr

/-- The classes of a received datagram (R94, R95). -/
inductive DgramClass where
  | pfx | finack | ack | syn | synack | ctrlOther | data
  deriving DecidableEq, Repr

end Sys2Proof.Machine
end

