-- ==== Sys2Proof/WellFormed.lean ====
section
/-! DEFINITION. Which commands, parameters, register accesses, host ranges and RX events the spec admits. -/

namespace Sys2Proof

/-- Every command is well formed: a command word has no operand field that could be ill formed (R80, R82). -/
def Instr.wf : Instr → Bool
  | .openConn | .connect | .listen | .accept | .send | .recv | .shutdown
  | .buildHeader | .sealSegment | .verify | .classify => true

/-- The parameter constraints of R5 on numbers, which R6 makes preconditions of the model. The constraint on CHECKSUM
holds of every parameter record (`Checksum.eval_singleBitSensitive`); `EngineInv` states both. -/
def Params.wf (p : Params) : Bool :=
  decide (1 ≤ p.mss.toNat) && decide (p.mss.toNat ≤ 65535) && decide (1 ≤ p.initWindow.toNat) &&
  decide (1 ≤ p.initCwnd.toNat) && decide (1 ≤ p.initSsthresh.toNat) && decide (1 ≤ p.ackTimeoutUs.toNat) &&
  decide (32 + p.mss.toNat ≤ p.maxDgram.toNat)

namespace Machine

/-- R61: a register access is admitted only as a naturally aligned 32-bit access inside `[0x00, 0xFC]`. -/
def regAccessOk (off size : Nat) : Bool :=
  decide (size = 4) && decide (off % 4 = 0) && decide (off ≤ 0xFC)

/-- R63: a host-memory range exists only inside the 32-bit address space, which does not wrap. -/
def hostRangeOk (addr n : Nat) : Bool := decide (addr + n ≤ 4294967296)

/-- R272: a Datagram event is at most MAX_DGRAM bytes long. -/
def RxEvent.wf (p : Params) : RxEvent → Bool
  | .datagram b _ => decide (b.length ≤ p.maxDgram.toNat)
  | .timedOut => true

end Machine
end Sys2Proof
end

