-- ==== Sys2Proof/Decode.lean ====
section
/-! DEFINITION. The command decoder and encoder (R80, R81, R83). -/

namespace Sys2Proof

/-- Why a command word is rejected: its opcode is reserved (R83). -/
inductive DecodeError where
  | reservedOpcode (op : BitVec 8)
  deriving DecidableEq, Repr

/-- The decoded field of a command word: CMD[7:0] (R80). CMD[31:8] is ignored. -/
def opcodeOf (w : Word) : BitVec 8 := w.extractLsb' 0 8

/-- The opcode map of R81. Every value not listed is reserved. -/
def decodeOp (op : BitVec 8) : Except DecodeError Instr :=
  match op.toNat with
  | 0x01 => .ok .openConn
  | 0x02 => .ok .connect
  | 0x03 => .ok .listen
  | 0x04 => .ok .accept
  | 0x05 => .ok .send
  | 0x06 => .ok .recv
  | 0x07 => .ok .shutdown
  | 0x10 => .ok .buildHeader
  | 0x11 => .ok .sealSegment
  | 0x12 => .ok .verify
  | 0x13 => .ok .classify
  | _ => .error (.reservedOpcode op)

/-- Decoding of a command word (R80): total, rejecting a reserved opcode by name. -/
def decode (w : Word) : Except DecodeError Instr := decodeOp (opcodeOf w)

/-- The opcode column of spec/opcode_table.json (R81). -/
def Instr.opcode : Instr → BitVec 8
  | .openConn => 0x01#8
  | .connect => 0x02#8
  | .listen => 0x03#8
  | .accept => 0x04#8
  | .send => 0x05#8
  | .recv => 0x06#8
  | .shutdown => 0x07#8
  | .buildHeader => 0x10#8
  | .sealSegment => 0x11#8
  | .verify => 0x12#8
  | .classify => 0x13#8

/-- The command word `0x000000<op>` of R100 (log entry 11). -/
def encode (i : Instr) : Word := i.opcode.setWidth 32

/-- The instruction the decoder reads from the table word `w` of `nbits` bits (bit 0 least significant): the command
word is one 32-bit word (R80), so the bits above `nbits` are zero. -/
def decodeTableWord (nbits w : Nat) : Option Instr :=
  match decode (BitVec.ofNat 32 (w % 2 ^ nbits)) with
  | .ok i => some i
  | .error _ => none

end Sys2Proof
end

