-- ==== Sys2Proof/Machine/Crc.lean ====
section
/-! DEFINITION. CHECKSUM (R5): the open parameter, or the CRC-32 instance of the spec's test vectors (I1). -/

namespace Sys2Proof.Machine

/-- One bit of the reflected CRC-32 (polynomial 0xEDB88320, spec/95_test_vectors.md section 1.2). -/
def crcBit (c : Word) : Word := if c.getLsbD 0 then (c >>> 1) ^^^ 0xEDB88320#32 else c >>> 1

/-- `n` bits of the reflected CRC-32. -/
def crcBits : Nat → Word → Word
  | 0, c => c
  | n + 1, c => crcBits n (crcBit c)

/-- One byte of the reflected CRC-32. -/
def crcByte (c : Word) (x : Byte) : Word := crcBits 8 (c ^^^ x.setWidth 32)

/-- The register of the CRC-32 after the bytes of `b`, from `c`. -/
def crcRun (c : Word) : List Byte → Word
  | [] => c
  | x :: b => crcRun (crcByte c x) b

/-- CRC-32 with initial value and final XOR 0xFFFFFFFF (spec/95_test_vectors.md section 1.2; I1). -/
def crc32 (b : List Byte) : Word := crcRun 0xFFFFFFFF#32 b ^^^ 0xFFFFFFFF#32

end Sys2Proof.Machine

namespace Sys2Proof

/-- `CHECKSUM(b)` of R13: the parameter of R5. Both selectors name a function with the single-bit property of R5
(Laws/Crc.lean, `Checksum.eval_singleBitSensitive`). -/
def Checksum.eval : Checksum → List Byte → Word
  | .parameter => Config.checksum.eval
  | .crc32 => Machine.crc32

end Sys2Proof
end

