-- ==== Sys2Proof/Machine/Bytes.lean ====
section
/-! DEFINITION. Byte sequences and the big-endian integer encodings of R8 and R9, and the arithmetic of R10. -/

namespace Sys2Proof.Machine

/-- `be16(v)` (R9). -/
def be16 (v : Half) : List Byte := [v.extractLsb' 8 8, v.extractLsb' 0 8]

/-- `be32(v)` (R9). -/
def be32 (v : Word) : List Byte :=
  [v.extractLsb' 24 8, v.extractLsb' 16 8, v.extractLsb' 8 8, v.extractLsb' 0 8]

/-- `zeros(n)` (R8). -/
def zeros (n : Nat) : List Byte := List.replicate n 0

/-- Byte `i` of `b` (R8). Every rule reads inside `b`; outside, the answer is 0 and nothing uses it. -/
def byteAt (b : List Byte) (i : Nat) : Byte := b.getD i 0

/-- `rd_be16(b, o)` (R9). -/
def rdBe16 (b : List Byte) (o : Nat) : Half := byteAt b o ++ byteAt b (o + 1)

/-- `rd_be32(b, o)` (R9). -/
def rdBe32 (b : List Byte) (o : Nat) : Word := rdBe16 b o ++ rdBe16 b (o + 2)

/-- `sat_add32(a, b)` (R10, D10). -/
def satAdd32 (a b : Word) : Word := BitVec.ofNat 32 (min (a.toNat + b.toNat) 4294967295)

/-- `ceil(a / b)` for `b ≥ 1` (R10). -/
def ceilDiv (a b : Nat) : Nat := (a + b - 1) / b

/-- `min(a, b)` of a 16-bit window and a 32-bit length, which fits the window (R240, R248). -/
def minWindow (w : Half) (n : Word) : Half := BitVec.ofNat 16 (min w.toNat n.toNat)

end Sys2Proof.Machine
end

