-- ==== Sys2Proof/Machine/Segment.lean ====
section
/-! DEFINITION. The segment header, the codec functions and the datagram classes (R84 to R97, R140 to R146). The
codec functions take CHECKSUM (R5) as their argument `ck`. -/

namespace Sys2Proof.Machine

/-- The control bits of R86. -/
def ctlAck : Half := 0x0800#16
def ctlSyn : Half := 0x2000#16
def ctlFin : Half := 0x4000#16
/-- The combinations of R87. -/
def ctlSynAck : Half := ctlSyn ||| ctlAck
def ctlFinAck : Half := ctlFin ||| ctlAck
/-- The control field of a data segment (R87). -/
def ctlData : Half := 0x0000#16

/-! ### Field accessors and serializer (R85) -/

def seqOf (b : List Byte) : Word := rdBe32 b 0
def ackOf (b : List Byte) : Word := rdBe32 b 4
def ctrlOf (b : List Byte) : Half := rdBe16 b 8
def winOf (b : List Byte) : Half := rdBe16 b 10
def dlenOf (b : List Byte) : Word := rdBe32 b 12
def csumOf (b : List Byte) : Word := rdBe32 b 28
def payloadOf (b : List Byte) : List Byte := b.drop 32

/-- `hdr(seq, ack, ctrl, win, dlen)` (R85): 32 bytes, the reserved bytes and the checksum field zero. -/
def hdr (seq ack : Word) (ctrl win : Half) (dlen : Word) : List Byte :=
  be32 seq ++ be32 ack ++ be16 ctrl ++ be16 win ++ be32 dlen ++ zeros 12 ++ be32 0

/-! ### Checksum, seal and verify (R140, R142, R143) -/

/-- `csum_input(b)` (R140). -/
def csumInput (b : List Byte) : List Byte := b.take 28 ++ zeros 4 ++ b.drop 32

/-- `seal(b)` (R142). -/
def sealWith (ck : List Byte → Word) (b : List Byte) : List Byte :=
  b.take 28 ++ be32 (ck (csumInput b)) ++ b.drop 32

/-- `verify(b)` (R143). -/
def verifyWith (ck : List Byte → Word) (b : List Byte) : Bool := csumOf b == ck (csumInput b)

/-! ### Classification (R94, R95, R144) -/

/-- R95: the class of a 32-byte datagram, from its control field, tested in this order. -/
def classifyCtrl (c : Half) : DgramClass :=
  if c &&& ctlFinAck = ctlFinAck then .finack
  else if c = ctlAck then .ack
  else if c = ctlSyn then .syn
  else if c = ctlSynAck then .synack
  else .ctrlOther

/-- `classify(b)` (R144): by the length (R94), and for 32 bytes by the control field. -/
def classify (b : List Byte) : DgramClass :=
  if b.length = 4 then .pfx
  else if b.length = 32 then classifyCtrl (ctrlOf b)
  else .data

/-- The class codes of R97. -/
def DgramClass.code : DgramClass → Word
  | .pfx => 0
  | .finack => 1
  | .ack => 2
  | .syn => 3
  | .synack => 4
  | .ctrlOther => 5
  | .data => 6

/-- R96: a datagram of a size that can be accepted as data. -/
def wellSized (mss : Word) (b : List Byte) : Bool := decide (33 ≤ b.length) && decide (b.length ≤ 32 + mss.toNat)

/-! ### Length prefix (R145, R146) -/

/-- `prefix(L)` (R145). -/
def lengthPrefix (l : Word) : List Byte := be32 l

/-- `prefix_value(b)` (R146). -/
def prefixValue (b : List Byte) : Word := rdBe32 b 0

end Sys2Proof.Machine
end

