-- ==== Sys2Proof/Machine/State.lean ====
section
/-! DEFINITION. The state of one engine instance (R2): plain data, holding everything spec/10_state.md names, the host
memory and the ports. -/

namespace Sys2Proof.Machine

/-- CONN_STATE (R21). The reserved codes 6 and 7 are not represented (I8). -/
inductive ConnState where
  | invalid | listen | established | closingByHost | closingByPeer | closed
  deriving DecidableEq, Repr

/-- ROLE (R22). -/
inductive Role where
  | client | server
  deriving DecidableEq, Repr

/-- PHASE, the engine's control point (R45). The reserved codes 9 to 15 are not represented (I8). -/
inductive Phase where
  | idle | connWaitSynack | accWaitSyn | accWaitAck | sndWaitAck | rcvWait | waitFinalAck | shdWaitAck | shdWaitFin
  deriving DecidableEq, Repr

/-- ERR_CODE (R291). The reserved codes 9 to 15 are not represented (I8). -/
inductive ErrCode where
  | none | checksumMismatch | sequenceMismatch | timeout | allocationFailure | protocolViolation | illegalCommand
  | precondition | bufferTooSmall
  deriving DecidableEq, Repr

/-- The stored fields of STATUS (R40). BUSY is derived from `phase` (R50). -/
structure Status where
  done : Bool
  err : Bool
  cmdOverrun : Bool
  errCode : ErrCode
  connState : ConnState
  role : Role
  finSeen : Bool
  csumLog : Bool
  protoLog : Bool
  rxbufValid : Bool
  phase : Phase
  rxTotalValid : Bool
  deriving DecidableEq, Repr

/-- The connection record of R20, less the fields that STATUS and CFG hold. -/
structure Conn where
  /-- SEQ_NUMBER (R23). -/
  seq : Word
  /-- ACK_NUMBER (R24). -/
  ack : Word
  /-- WINDOW.CURR_WINDOW (R25). -/
  currWindow : Half
  /-- WINDOW.PEER_WINDOW (R26). -/
  peerWindow : Half
  /-- CWND (R28). -/
  cwnd : Word
  /-- SSTHRESH (R29). -/
  ssthresh : Word
  /-- PEER_ADDR (R31). -/
  peerAddr : Word
  /-- PEER_FIN_SEQ (R32). -/
  peerFinSeq : Word
  deriving DecidableEq, Repr

/-- The event counters of R42. -/
structure Counters where
  txDup : Word
  rxDup : Word
  timeout : Word
  halve : Word
  deriving DecidableEq, Repr

/-- The progress registers of R43. -/
structure Progress where
  roundStart : Word
  txDelivered : Word
  rxWritten : Word
  rxTotal : Word
  rxExpectedSegs : Word
  deriving DecidableEq, Repr

/-- The hidden command registers of R46. -/
structure Cmd where
  /-- cmd_op. -/
  op : BitVec 8
  /-- arg0_l. -/
  arg0L : Word
  /-- arg1_l. -/
  arg1L : Word
  /-- final_result. -/
  finalResult : Word
  deriving DecidableEq, Repr

/-- The hidden send-engine registers of R47, but for consec_to. -/
structure Snd where
  /-- snd_src. -/
  src : Word
  /-- snd_len. -/
  len : Word
  /-- snd_base. -/
  base : Word
  /-- snd_max_off. -/
  maxOff : Word
  /-- round_seq. -/
  roundSeq : Word
  /-- round_len. -/
  roundLen : Word
  /-- round_n. -/
  roundN : Word
  /-- wait_k. -/
  waitK : Word
  /-- round_dup. -/
  roundDup : Word
  /-- rec_ack. -/
  recAck : Word
  /-- rec_valid. -/
  recValid : Bool
  /-- ca_grown. -/
  caGrown : Bool
  deriving DecidableEq, Repr

/-- The hidden receive-engine registers of R48. -/
structure Rcv where
  /-- rcv_dst. -/
  dst : Word
  /-- rcv_max. -/
  max : Word
  deriving DecidableEq, Repr

/-- Host memory (R60): the listed bytes, in the canonical form `Memory.wf` of Machine/Ops.lean. -/
abbrev Memory := List Host.Cell

/-- One engine instance with its host memory and its ports. -/
structure State where
  /-- The CFG registers and the other parameters of the instance (R5, R36): no step changes them. -/
  cfg : Params
  /-- ARG0 (R38). -/
  arg0 : Word
  /-- ARG1 (R38). -/
  arg1 : Word
  /-- RESULT (R39). -/
  result : Word
  /-- CTRL.IRQ_EN (R41). -/
  irqEn : Bool
  /-- STATUS (R40). -/
  status : Status
  /-- The connection record (R20). -/
  conn : Conn
  /-- The event counters (R42). -/
  count : Counters
  /-- The progress registers (R43). -/
  prog : Progress
  /-- The hidden command registers (R46). -/
  cmd : Cmd
  /-- The hidden send-engine registers (R47). -/
  snd : Snd
  /-- The hidden receive-engine registers (R48). -/
  rcv : Rcv
  /-- consec_to, shared by SEND and RECV (R47, R48). -/
  consecTo : Word
  /-- recv_buffer (R33): the datagram of the RX event being processed, at most 32 + MSS bytes (log entry 9). -/
  recvBuffer : List Byte
  /-- Host memory (R60). -/
  mem : Memory
  /-- The byte ranges the host has lent to the engine (R62, log entry 5). -/
  lent : List LentRange
  /-- The model's own field: the events still to come, in their serialised order (R297, log entry 3). -/
  inputs : List Input
  /-- The model's own field: every datagram handed to the Transport, oldest first (R270, log entry 8). -/
  tx : List Tx
  /-- The model's own field: the word the last register read delivered (R126, log entry 10). -/
  readData : Word
  deriving DecidableEq, Repr

/-- Why the machine stops with a fault. -/
inductive Fault where
  /-- Raised by a step whose MemRead or MemWrite is not admitted (R62, I10: "stuck"): the step has no transition.
  Safe: the machine stops where the spec's engine stays in its phase for good. -/
  | memNotAdmitted (kind : Access) (addr n : Nat)
  deriving DecidableEq, Repr

/-- Why the model has no move. -/
inductive Refusal where
  /-- Raised only by an arm of `exec` without a meaning. Safe. -/
  | notModelled (mnemonic : String)
  /-- Raised by a register-space access that is not a naturally aligned 32-bit access in `[0x00, 0xFC]`
  (R61, I6: "refuse"). Safe. -/
  | badRegisterAccess (off size : Nat)
  /-- Raised by a host access to its memory at `2^32` or above, which does not exist (R63). Safe. -/
  | hostAddress (addr n : Nat)
  /-- Raised by a host write to the SEND source range, or a host access to the RECV destination range, while that
  command runs (R74 (b), I9: "refuse"). Safe. -/
  | hostRace (kind : Access) (addr n : Nat)
  /-- Raised by an RX datagram longer than MAX_DGRAM, which is no RX event (R272). Safe. -/
  | rxTooLong (len : Nat)
  deriving DecidableEq, Repr

/-- The three outcomes of a step of this machine. -/
abbrev Out := Host.Outcome State Fault Refusal

/-- The state right after hardware reset of an instance with the parameters `p` (R320, R322). The rows of R320 are as
the spec gives them; host memory, the lent ranges, recv_buffer and the model's own fields are log entries 5, 6, 9
and 10. -/
def State.resetWith (p : Params) : State where
  cfg := p
  arg0 := 0
  arg1 := 0
  result := 0
  irqEn := false
  status :=
    { done := false, err := false, cmdOverrun := false, errCode := .none, connState := .invalid, role := .client,
      finSeen := false, csumLog := false, protoLog := false, rxbufValid := false, phase := .idle,
      rxTotalValid := false }
  conn :=
    { seq := 0, ack := 0, currWindow := p.initWindow, peerWindow := p.initWindow, cwnd := p.initCwnd,
      ssthresh := p.initSsthresh, peerAddr := 0, peerFinSeq := 0 }
  count := { txDup := 0, rxDup := 0, timeout := 0, halve := 0 }
  prog := { roundStart := 0, txDelivered := 0, rxWritten := 0, rxTotal := 0, rxExpectedSegs := 0 }
  cmd := { op := 0, arg0L := 0, arg1L := 0, finalResult := 0 }
  snd :=
    { src := 0, len := 0, base := 0, maxOff := 0, roundSeq := 0, roundLen := 0, roundN := 0, waitK := 0,
      roundDup := 0, recAck := 0, recValid := false, caGrown := false }
  rcv := { dst := 0, max := 0 }
  consecTo := 0
  recvBuffer := []
  mem := []
  lent := [⟨0, 4294967296, .read⟩, ⟨0, 4294967296, .write⟩]
  inputs := []
  tx := []
  readData := 0

/-- The machine right after reset (R320), with the open parameters `Config.params` (log entry 2). -/
def State.reset : State := State.resetWith Config.params

end Sys2Proof.Machine
end

