-- ==== Sys2Proof/Machine/Ops.lean ====
section
/-! DEFINITION. The named operations every rule uses: host memory and its admission (R12, R62), the TX port (R13),
completion (R14), offsets of a SEND (R16), built headers (R141) and the connection record's reset (R320). -/

namespace Sys2Proof.Machine

/-! ### Host memory -/

/-- What a byte of host memory that nothing has written reads as (log entry 6). -/
def memDefault : Byte := 0

/-- The byte of host memory at address `a`. -/
def Memory.get : Memory → Nat → Byte
  | [], _ => memDefault
  | (x, v) :: m, a => if a = x then v else Memory.get m a

/-- Host memory with byte `b` at address `a`, in canonical form. -/
def Memory.set : Memory → Nat → Byte → Memory
  | [], a, b => if b = memDefault then [] else [(a, b)]
  | (x, v) :: m, a, b =>
    if a < x then (if b = memDefault then (x, v) :: m else (a, b) :: (x, v) :: m)
    else if a = x then (if b = memDefault then m else (a, b) :: m)
    else (x, v) :: Memory.set m a b

/-- Every cell of `m` lies at `lo` or above, the addresses rise, and no cell holds the default. -/
def Memory.wfFrom : Nat → Memory → Bool
  | _, [] => true
  | lo, (x, v) :: m =>
    decide (lo ≤ x) && decide (x < 4294967296) && decide (v ≠ memDefault) && Memory.wfFrom (x + 1) m

/-- The canonical form of host memory: addresses strictly rising inside the 32-bit space (R60), no cell equal to what
an unlisted address reads as. Equal memories are equal lists. -/
def Memory.wf (m : Memory) : Bool := Memory.wfFrom 0 m

/-- The `n` bytes at `a, a+1, …` (R12). -/
def Memory.readBytes (m : Memory) (a n : Nat) : List Byte := (List.range n).map fun i => m.get (a + i)

/-- The bytes of `bs` written at `a, a+1, …`, in increasing address order (R12). -/
def Memory.writeBytes (m : Memory) (a : Nat) : List Byte → Memory
  | [] => m
  | b :: bs => Memory.writeBytes (m.set a b) (a + 1) bs

/-- The range has been lent for accesses of kind `k` and holds the byte at `a`. -/
def LentRange.covers (r : LentRange) (k : Access) (a : Nat) : Bool :=
  decide (r.kind = k) && decide (r.base ≤ a) && decide (a < r.base + r.len)

/-- `admitted(addr, n, kind)` and `addr + n ≤ 2^32` (R62): every byte of the access is lent for its kind. An access of
0 bytes is always admitted. -/
def admitted (lent : List LentRange) (addr n : Nat) (k : Access) : Bool :=
  decide (n = 0) ||
    (hostRangeOk addr n && (List.range n).all fun i => lent.any fun r => r.covers k (addr + i))

/-- `MemRead(addr, n)` of the engine (R12), and the rest `k` of its step; without admission the step has no
transition (R62, R133). -/
def memRead (s : State) (addr n : Nat) (k : List Byte → Out) : Out :=
  if admitted s.lent addr n .read then k (s.mem.readBytes addr n)
  else .fault (.memNotAdmitted .read addr n)

/-- `MemWrite(addr, n, v)` of the engine (R12), and the rest `k` of its step; without admission the step has no
transition (R62, R133). -/
def memWrite (s : State) (addr : Nat) (v : List Byte) (k : State → Out) : Out :=
  if admitted s.lent addr v.length .write then k { s with mem := s.mem.writeBytes addr v }
  else .fault (.memNotAdmitted .write addr v.length)

/-! ### Completion (R14): the engine's only way out of a command, and what takes the place of a trap (R290, R299) -/

/-- `complete(r)` (R14). -/
def complete (r : Word) (s : State) : State :=
  { s with result := r, status.err := false, status.errCode := .none, status.done := true, status.phase := .idle }

/-- `fail(code, r)` (R14). -/
def fail (code : ErrCode) (r : Word) (s : State) : State :=
  { s with result := r, status.err := true, status.errCode := code, status.done := true, status.phase := .idle }

/-! ### The TX port, built headers, offsets -/

/-- `TX(dest, b)` (R13, R270). -/
def transmit (dest : Word) (b : List Byte) (s : State) : State := { s with tx := s.tx ++ [⟨dest, b⟩] }

/-- CHECKSUM of this instance (R5). -/
def State.ck (s : State) : List Byte → Word := s.cfg.checksum.eval

/-- `build_header(ctrl)` (R141): a sealed control segment from the current registers. -/
def buildHeader (ctrl : Half) (s : State) : List Byte :=
  sealWith s.ck (hdr s.conn.seq s.conn.ack ctrl s.conn.currWindow 0)

/-- `TX(PEER_ADDR, build_header(ctrl))`. -/
def transmitCtl (ctrl : Half) (s : State) : State := transmit s.conn.peerAddr (buildHeader ctrl s) s

/-- `off(x)` (R16). -/
def off (s : State) (x : Word) : Word := x - s.snd.base

/-! ### Reset of the connection record (R320) -/

/-- Every row of R320 marked "OPEN: yes" at its reset value. -/
def openReset (s : State) : State :=
  let r := State.resetWith s.cfg
  { s with
    result := r.result
    status := r.status
    conn := r.conn
    count := r.count
    prog := r.prog
    cmd := { r.cmd with op := s.cmd.op }
    snd := r.snd
    rcv := r.rcv
    consecTo := r.consecTo }

/-- Hardware reset (R321): every row of R320 at its reset value, in one step. Host memory, the lent ranges, the
events to come and the datagrams already handed over are outside the block and stay (log entry 17). -/
def hardwareReset (s : State) : State :=
  { State.resetWith s.cfg with mem := s.mem, lent := s.lent, inputs := s.inputs, tx := s.tx }

end Sys2Proof.Machine
end

