-- ==== Sys2Proof/Machine/Flags.lean ====
section
/-! DEFINITION. STATUS and CTRL: the codes of their fields, the words the host reads, write-1-to-clear, the sticky
logs and the interrupt line (R15, R21, R22, R40, R41, R45, R50, R127, R291, R298). -/

namespace Sys2Proof.Machine

/-- The code of CONN_STATE (R21). -/
def ConnState.code : ConnState → Word
  | .invalid => 0
  | .listen => 1
  | .established => 2
  | .closingByHost => 3
  | .closingByPeer => 4
  | .closed => 5

/-- The code of ROLE (R22). -/
def Role.code : Role → Word
  | .client => 0
  | .server => 1

/-- The code of PHASE (R45). -/
def Phase.code : Phase → Word
  | .idle => 0
  | .connWaitSynack => 1
  | .accWaitSyn => 2
  | .accWaitAck => 3
  | .sndWaitAck => 4
  | .rcvWait => 5
  | .waitFinalAck => 6
  | .shdWaitAck => 7
  | .shdWaitFin => 8

/-- The code of ERR_CODE (R291). -/
def ErrCode.code : ErrCode → Word
  | .none => 0
  | .checksumMismatch => 1
  | .sequenceMismatch => 2
  | .timeout => 3
  | .allocationFailure => 4
  | .protocolViolation => 5
  | .illegalCommand => 6
  | .precondition => 7
  | .bufferTooSmall => 8

/-- A flag as the word with that one bit. -/
def bit (b : Bool) (i : Nat) : Word := if b then 1#32 <<< i else 0#32

/-- STATUS.BUSY (R50). -/
def busy (s : State) : Bool := decide (s.status.phase ≠ .idle)

/-- The word a read of STATUS returns (R40); the reserved bits 31:21 read 0. -/
def statusWord (s : State) : Word :=
  bit (busy s) 0 ||| bit s.status.done 1 ||| bit s.status.err 2 ||| bit s.status.cmdOverrun 3 |||
  (s.status.errCode.code <<< 4) ||| (s.status.connState.code <<< 8) ||| (s.status.role.code <<< 11) |||
  bit s.status.finSeen 12 ||| bit s.status.csumLog 13 ||| bit s.status.protoLog 14 |||
  bit s.status.rxbufValid 15 ||| (s.status.phase.code <<< 16) ||| bit s.status.rxTotalValid 20

/-- A host write to STATUS (R127): each W1C bit written as 1 is cleared, every other bit is ignored. -/
def writeStatus (v : Word) (s : State) : State :=
  { s with
    status.done := s.status.done && !v.getLsbD 1
    status.err := s.status.err && !v.getLsbD 2
    status.cmdOverrun := s.status.cmdOverrun && !v.getLsbD 3
    status.csumLog := s.status.csumLog && !v.getLsbD 13
    status.protoLog := s.status.protoLog && !v.getLsbD 14 }

/-- The word a read of CTRL returns (R41). -/
def ctrlWord (s : State) : Word := bit s.irqEn 0

/-- A host write to CTRL (R41, R128): bit 0 is IRQ_EN, bits 31:1 are ignored. -/
def writeCtrl (v : Word) (s : State) : State := { s with irqEn := v.getLsbD 0 }

/-- The interrupt line (R298). -/
def irq (s : State) : Bool := s.irqEn && s.status.done

/-- `log_csum()` (R15). -/
def logCsum (s : State) : State := { s with status.csumLog := true }

/-- `log_proto()` (R15). -/
def logProto (s : State) : State := { s with status.protoLog := true }

/-- `if not v: log_csum()`. -/
def logCsumUnless (v : Bool) (s : State) : State := if v then s else logCsum s

end Sys2Proof.Machine
end

