-- ==== Sys2Proof/Machine/Operands.lean ====
section
/-! DEFINITION. Issue: latching the operands, clearing the completion bits, the operand forms of R82 and the
preconditions of R122. -/

namespace Sys2Proof.Machine

/-- The first part of issue (R120): cmd_op and the latched operands, with DONE, ERR and ERR_CODE cleared. -/
def latch (op : BitVec 8) (s : State) : State :=
  { s with
    cmd.op := op
    cmd.arg0L := s.arg0
    cmd.arg1L := s.arg1
    status.done := false
    status.err := false
    status.errCode := .none }

/-- The control bits of BUILD_HEADER: `arg0_l[15:0]`; `arg0_l[31:16]` is ignored (R82, R147). -/
def ctrlOperand (s : State) : Half := s.cmd.arg0L.extractLsb' 0 16

/-- `pre(op, CONN_STATE)` (R122). -/
def pre : Instr → ConnState → Bool
  | .openConn, _ => true
  | .connect, c => decide (c = .invalid)
  | .listen, c => decide (c = .invalid)
  | .accept, c => decide (c = .listen)
  | .send, c => decide (c = .established)
  | .recv, c => decide (c = .established)
  | .shutdown, c => decide (c = .established)
  | .buildHeader, _ => true
  | .sealSegment, _ => true
  | .verify, _ => true
  | .classify, _ => true

/-- The CONN_STATE check of issue (R120, R123): PRECONDITION, or the issue part `body` of the command. -/
def whenPre (i : Instr) (s : State) (body : Out) : Out :=
  if pre i s.status.connState then body else .next (fail .precondition 0 s)

end Sys2Proof.Machine
end

