-- ==== Sys2Proof/Machine/CodecCommands.lean ====
section
/-! DEFINITION. The meanings of BUILD_HEADER, SEAL, VERIFY and CLASSIFY (R147 to R150). -/

namespace Sys2Proof.Machine

/-- BUILD_HEADER (R147): 32 bytes at `arg1_l`, RESULT the checksum written. -/
def execBuildHeader (s : State) : Out :=
  whenPre .buildHeader s <|
    memWrite s s.cmd.arg1L.toNat (buildHeader (ctrlOperand s) s) fun s' =>
      .next (complete (csumOf (buildHeader (ctrlOperand s) s)) s')

/-- SEAL (R148): reads the `arg1_l` bytes at `arg0_l`, writes the 4 checksum bytes at `arg0_l + 28`. -/
def execSeal (s : State) : Out :=
  whenPre .sealSegment s <|
    if s.cmd.arg1L.toNat < 32 then .next (fail .precondition 0 s)
    else memRead s s.cmd.arg0L.toNat s.cmd.arg1L.toNat fun b =>
      memWrite s (s.cmd.arg0L.toNat + 28) (((sealWith s.ck b).drop 28).take 4) fun s' =>
        .next (complete (csumOf (sealWith s.ck b)) s')

/-- VERIFY (R149): RESULT 1, or CSUM_LOG and CHECKSUM_MISMATCH. -/
def execVerify (s : State) : Out :=
  whenPre .verify s <|
    if s.cmd.arg1L.toNat < 32 then .next (fail .precondition 0 s)
    else memRead s s.cmd.arg0L.toNat s.cmd.arg1L.toNat fun b =>
      if verifyWith s.ck b then .next (complete 1 s)
      else .next (fail .checksumMismatch 0 (logCsum s))

/-- CLASSIFY (R150): only a length of 32 reads memory, the 2 control bytes at `arg0_l + 8`. -/
def execClassify (s : State) : Out :=
  whenPre .classify s <|
    if s.cmd.arg1L.toNat = 4 then .next (complete DgramClass.pfx.code s)
    else if s.cmd.arg1L.toNat ≠ 32 then .next (complete DgramClass.data.code s)
    else memRead s (s.cmd.arg0L.toNat + 8) 2 fun b =>
      .next (complete (classifyCtrl (rdBe16 b 0)).code s)

end Sys2Proof.Machine
end

