-- ==== Sys2Proof/Machine/Connection.lean ====
section
/-! DEFINITION. The connection lifecycle: the meanings of LISTEN, CONNECT, ACCEPT and SHUTDOWN, the reply sequence,
and the event rules of their wait phases (R160 to R177). -/

namespace Sys2Proof.Machine

/-! ### Server bind and client connect -/

/-- LISTEN (R160). -/
def execListen (s : State) : Out :=
  whenPre .listen s <|
    .next (complete 0 { s with status.role := .server, status.connState := .listen })

/-- CONNECT, issue part (R161): the SYN leaves, and the engine waits for the SYN|ACK. -/
def execConnect (s : State) : Out :=
  whenPre .connect s <|
    let s1 : State :=
      { s with
        status.role := .client
        conn.peerAddr := s.cmd.arg1L
        conn.seq := s.cmd.arg0L
        conn.ack := 0 }
    let s2 := transmitCtl ctlSyn s1
    .next { s2 with status.phase := .connWaitSynack }

/-- CONN_WAIT_SYNACK (R162, R163). -/
def rxConnWaitSynack (e : RxEvent) (s : State) : Out :=
  match e with
  | .timedOut => .next (fail .timeout 0 s)
  | .datagram b _ =>
    if classify b ≠ .synack then .next (fail .protocolViolation 0 s)
    else
      let v := verifyWith s.ck b
      let s0 := logCsumUnless v s
      if ackOf b ≠ s.conn.seq + 1 then .next (fail .sequenceMismatch 0 s0)
      else
        let s1 : State :=
          { s0 with
            conn.peerWindow := if v then winOf b else s.conn.peerWindow
            conn.ack := seqOf b + 1
            conn.seq := s.conn.seq + 1 }
        let s2 := transmitCtl ctlAck s1
        .next (complete 0 { s2 with status.connState := .established, status.rxbufValid := true })

/-! ### Server accept -/

/-- ACCEPT, issue part (R164). -/
def execAccept (s : State) : Out :=
  whenPre .accept s <|
    .next { s with conn.seq := s.cmd.arg0L, status.phase := .accWaitSyn }

/-- ACC_WAIT_SYN (R165, R166): TimedOut is ignored. -/
def rxAccWaitSyn (e : RxEvent) (s : State) : Out :=
  match e with
  | .timedOut => .next s
  | .datagram b src =>
    if classify b ≠ .syn then .next (fail .protocolViolation 0 s)
    else
      let v := verifyWith s.ck b
      let s0 := logCsumUnless v s
      let s1 : State :=
        { s0 with
          conn.peerAddr := src
          conn.peerWindow := if v then winOf b else s.conn.peerWindow
          conn.ack := seqOf b + 1 }
      let s2 := transmitCtl ctlSynAck s1
      .next { s2 with status.phase := .accWaitAck }

/-- ACC_WAIT_ACK (R167, R168). RESULT is the bound peer handle. -/
def rxAccWaitAck (e : RxEvent) (s : State) : Out :=
  match e with
  | .timedOut => .next (fail .timeout 0 s)
  | .datagram b _ =>
    if classify b ≠ .ack then .next (fail .protocolViolation 0 s)
    else
      let v := verifyWith s.ck b
      let s0 := logCsumUnless v s
      if ackOf b ≠ s.conn.seq + 1 ∨ seqOf b ≠ s.conn.ack then .next (fail .sequenceMismatch 0 s0)
      else
        let s1 : State :=
          { s0 with
            conn.peerWindow := if v then winOf b else s.conn.peerWindow
            conn.seq := s.conn.seq + 1
            status.connState := .established
            status.rxbufValid := true }
        .next (complete s.conn.peerAddr s1)

/-! ### Teardown -/

/-- `reply_close(p)`, the reply sequence (R175): an ACK of the peer's FIN, then this end's FIN|ACK. -/
def replyClose (p : Word) (s : State) : State :=
  let s1 : State := { s with status.connState := .closingByPeer, conn.ack := p + 1 }
  let s2 := transmitCtl ctlAck s1
  let s3 : State := { s2 with conn.seq := s.conn.seq + 1 }
  let s4 := transmitCtl ctlFinAck s3
  { s4 with status.phase := .waitFinalAck }

/-- SHUTDOWN, issue part (R170): the first FIN, or the reply sequence when the peer's FIN has been seen. -/
def execShutdown (s : State) : Out :=
  whenPre .shutdown s <|
    if s.status.finSeen then .next (replyClose s.conn.peerFinSeq { s with cmd.finalResult := 0 })
    else
      let s1 := transmitCtl ctlFinAck s
      .next
        { s1 with
          conn.seq := s.conn.seq + 1
          status.connState := .closingByPeer
          status.phase := .shdWaitAck }

/-- SHD_WAIT_ACK (R171, R172). -/
def rxShdWaitAck (e : RxEvent) (s : State) : Out :=
  match e with
  | .timedOut => .next (fail .timeout 0 s)
  | .datagram b _ =>
    if classify b ≠ .ack then .next (fail .protocolViolation 0 s)
    else
      let s0 := logCsumUnless (verifyWith s.ck b) s
      if ackOf b ≠ s.conn.seq ∨ seqOf b ≠ s.conn.ack then .next (fail .sequenceMismatch 0 s0)
      else .next { s0 with status.phase := .shdWaitFin }

/-- SHD_WAIT_FIN (R173, R174). -/
def rxShdWaitFin (e : RxEvent) (s : State) : Out :=
  match e with
  | .timedOut => .next (fail .timeout 0 s)
  | .datagram b _ =>
    if classify b ≠ .finack then .next (fail .protocolViolation 0 s)
    else
      let s0 := logCsumUnless (verifyWith s.ck b) s
      let s1 := transmitCtl ctlAck { s0 with conn.ack := seqOf b + 1 }
      .next (complete 0 { s1 with status.connState := .closed, status.rxbufValid := false })

/-- WAIT_FINAL_ACK (R176, R177): RESULT is final_result on every way out. -/
def rxWaitFinalAck (e : RxEvent) (s : State) : Out :=
  match e with
  | .timedOut => .next (fail .timeout s.cmd.finalResult s)
  | .datagram b _ =>
    if classify b ≠ .ack then .next (fail .protocolViolation s.cmd.finalResult s)
    else
      let s0 := logCsumUnless (verifyWith s.ck b) s
      if ackOf b ≠ s.conn.seq + 1 ∨ seqOf b ≠ s.conn.ack then
        .next (fail .sequenceMismatch s.cmd.finalResult s0)
      else
        .next (complete s.cmd.finalResult
          { s0 with
            conn.seq := s.conn.seq + 1
            status.connState := .closed
            status.rxbufValid := false })

end Sys2Proof.Machine
end

