-- ==== Sys2Proof/Machine/OpenCommand.lean ====
section
/-! DEFINITION. The meaning of OPEN (R124). -/

namespace Sys2Proof.Machine

/-- OPEN (R124): the connection record of R320, then `complete(0)`. Nothing is transmitted. -/
def execOpen (s : State) : Out := whenPre .openConn s (.next (complete 0 (openReset s)))

end Sys2Proof.Machine
end

