-- ==== Sys2Proof/Machine/Send.lean ====
section
/-! DEFINITION. The send engine: the meaning of SEND and the event rules of SND_WAIT_ACK (R200 to R223). -/

namespace Sys2Proof.Machine

/-! ### Rounds (R202 to R206) -/

/-- The flow window of a round (R203): PEER_WINDOW, with 0 treated as 1. -/
def flowWindow (s : State) : Nat := if s.conn.peerWindow = 0 then 1 else s.conn.peerWindow.toNat

/-- `n_i`, the payload length of chunk `i` of a round of `round_len` bytes (R204). -/
def chunkLen (s : State) (i : Nat) : Nat := min s.cfg.mss.toNat (s.snd.roundLen.toNat - i * s.cfg.mss.toNat)

/-- `end_k`, the ending sequence number of chunk `k` (R49, R204). -/
def endSeq (s : State) (k : Nat) : Word :=
  s.snd.roundSeq + BitVec.ofNat 32 (min ((k + 1) * s.cfg.mss.toNat) s.snd.roundLen.toNat)

/-- The segment of chunk `i` with payload `p` (R205): control 0, data_len `n_i`, sealed over header and payload. -/
def chunkSegment (s : State) (i : Nat) (p : List Byte) : List Byte :=
  sealWith s.ck
    (hdr (s.snd.roundSeq + BitVec.ofNat 32 (i * s.cfg.mss.toNat)) s.conn.ack ctlData s.conn.currWindow
      (BitVec.ofNat 32 (chunkLen s i)) ++ p)

/-- The host address of chunk `i`'s payload (R205): `snd_src + d + i*MSS`, with `d` the offset of the round's first
byte. Host addresses do not wrap (R63). -/
def chunkAddr (s : State) (i : Nat) : Nat :=
  s.snd.src.toNat + (off s s.snd.roundSeq).toNat + i * s.cfg.mss.toNat

/-- The `n` chunks `i, i+1, …` of the round, read from host memory and transmitted in order (R202, R205). -/
def transmitChunks : Nat → Nat → State → Out
  | 0, _, s => .next s
  | n + 1, i, s =>
    memRead s (chunkAddr s i) (chunkLen s i) fun p =>
      transmitChunks n (i + 1) (transmit s.conn.peerAddr (chunkSegment s i p) s)

/-- The registers of a new round of `r` bytes starting `d` bytes into the payload (R202, R206). They are written in
the step that transmits the round's chunks. -/
def beginRound (d r : Nat) (s : State) : State :=
  { s with
    snd.roundSeq := s.conn.seq
    snd.roundLen := BitVec.ofNat 32 r
    snd.roundN := BitVec.ofNat 32 (ceilDiv r s.cfg.mss.toNat)
    prog.roundStart := BitVec.ofNat 32 d
    snd.maxOff := BitVec.ofNat 32 (max s.snd.maxOff.toNat (d + r))
    snd.waitK := 0
    snd.roundDup := 0
    snd.recAck := 0
    snd.recValid := false
    snd.caGrown := false
    status.phase := .sndWaitAck }

/-- The round size `R` (R202, R203). -/
def roundSize (s : State) (rem : Nat) : Nat := min (flowWindow s) (min s.conn.cwnd.toNat rem)

/-- `round_start()` (R202): complete the SEND, or transmit the next round. -/
def startRound (s : State) : Out :=
  let d := off s s.conn.seq
  let s1 : State := { s with prog.txDelivered := d }
  let rem := s.snd.len - d
  if rem = 0 then .next (complete d s1)
  else
    let s2 := beginRound d.toNat (roundSize s rem.toNat) s1
    transmitChunks s2.snd.roundN.toNat 0 s2

/-- SEND, issue part (R201). -/
def execSend (s : State) : Out :=
  whenPre .send s <|
    let s1 : State :=
      { s with
        snd.src := s.cmd.arg0L
        snd.len := s.cmd.arg1L
        snd.base := s.conn.seq
        snd.maxOff := 0
        consecTo := 0
        prog.txDelivered := 0
        prog.roundStart := 0 }
    startRound (transmit s1.conn.peerAddr (lengthPrefix s1.snd.len) s1)

/-! ### Timeout (R209 to R211) -/

/-- `collapse()` (R210). -/
def collapse (s : State) : State :=
  let h := s.conn.cwnd.toNat / 2
  let th := max 1 h
  { s with
    conn.ssthresh := BitVec.ofNat 32 th
    conn.cwnd := BitVec.ofNat 32 (min s.cfg.mss.toNat th) }

/-- One more consecutive TimedOut (R209, R242). -/
def countTimeout (s : State) : State :=
  { s with count.timeout := s.count.timeout + 1, consecTo := satAdd32 s.consecTo 1 }

/-- The retry bound is reached (R209, R242). MAX_RETRIES = 0 is no bound. -/
def retriesExhausted (s : State) : Bool :=
  decide (s.cfg.maxRetries ≠ 0) && decide (s.cfg.maxRetries.toNat ≤ s.consecTo.toNat)

/-- TimedOut in SND_WAIT_ACK (R209). -/
def sndTimedOut (s : State) : Out :=
  let s1 := collapse (countTimeout s)
  if retriesExhausted s1 then
    let d := off s1 s1.conn.seq
    .next (fail .timeout d { s1 with prog.txDelivered := d })
  else startRound s1

/-! ### Round end (R220 to R222) -/

/-- Duplicate halving (R220), when the round saw duplicates. -/
def halveIfDup (s : State) : State :=
  if s.snd.roundDup.toNat > 0 then
    let h := s.conn.cwnd.toNat / 2
    { s with
      count.halve := s.count.halve + 1
      conn.ssthresh := BitVec.ofNat 32 (max 1 h)
      conn.cwnd := BitVec.ofNat 32 (h + 1) }
  else s

/-- Confirmation by the recorded ack (R221). -/
def confirmRecorded (s : State) : State :=
  if s.snd.recValid = true ∧ (off s s.snd.recAck).toNat > (off s s.conn.seq).toNat then
    { s with conn.seq := s.snd.recAck }
  else s

/-- `round_end()` (R220, R221, R222). -/
def roundEnd (s : State) : Out := startRound (confirmRecorded (halveIfDup s))

/-! ### Acknowledgements (R212 to R219) -/

/-- A duplicate of the round (R213, R218). -/
def countDup (s : State) : State :=
  { s with count.txDup := s.count.txDup + 1, snd.roundDup := s.snd.roundDup + 1 }

/-- Growth after an in-order ack (R216, R217). -/
def growCwnd (s : State) : State :=
  if s.conn.cwnd.toNat < s.conn.ssthresh.toNat then
    { s with conn.cwnd := satAdd32 s.conn.cwnd s.cfg.mss }
  else if s.snd.caGrown then s
  else { s with conn.cwnd := satAdd32 s.conn.cwnd s.cfg.mss, snd.caGrown := true }

/-- In-order acknowledgement of chunk `wait_k` (R215 to R217). -/
def ackInOrder (s : State) : State := growCwnd { s with conn.seq := endSeq s s.snd.waitK.toNat }

/-- Out-of-order acknowledgement with value `a` (R218): recorded when it is the highest in-range one so far. -/
def ackOutOfOrder (a : Word) (s : State) : State :=
  let s1 := countDup s
  if (off s s.conn.seq).toNat < (off s a).toNat ∧ (off s a).toNat ≤ s.snd.maxOff.toNat ∧
      (s.snd.recValid = false ∨ (off s a).toNat > (off s s.snd.recAck).toNat) then
    { s1 with snd.recAck := a, snd.recValid := true }
  else s1

/-- Advance to the next chunk's ack, or end the round (R219). -/
def advance (s : State) : Out :=
  let s1 : State := { s with snd.waitK := s.snd.waitK + 1 }
  if s1.snd.waitK = s1.snd.roundN then roundEnd s1 else .next s1

/-- An ACK datagram in SND_WAIT_ACK (R213 to R219). -/
def sndAck (b : List Byte) (s : State) : Out :=
  if verifyWith s.ck b then
    let s1 : State := { s with conn.peerWindow := winOf b }
    if ackOf b = endSeq s1 s1.snd.waitK.toNat then advance (ackInOrder s1)
    else advance (ackOutOfOrder (ackOf b) s1)
  else advance (countDup (logCsum s))

/-- SND_WAIT_ACK (R208). -/
def rxSndWaitAck (e : RxEvent) (s : State) : Out :=
  match e with
  | .timedOut => sndTimedOut s
  | .datagram b _ =>
    let s0 : State := { s with consecTo := 0 }
    if classify b ≠ .ack then .next (logProto s0) else sndAck b s0

end Sys2Proof.Machine
end

