-- ==== Sys2Proof/Machine/Receive.lean ====
section
/-! DEFINITION. The receive engine: the meaning of RECV and the event rules of RCV_WAIT (R240 to R250). -/

namespace Sys2Proof.Machine

/-- RECV, issue part (R240). -/
def execRecv (s : State) : Out :=
  whenPre .recv s <|
    .next
      { s with
        rcv.dst := s.cmd.arg0L
        rcv.max := s.cmd.arg1L
        prog.rxWritten := 0
        prog.rxTotal := 0
        status.rxTotalValid := false
        prog.rxExpectedSegs := 0
        consecTo := 0
        conn.currWindow := minWindow s.cfg.initWindow s.cmd.arg1L
        status.phase := .rcvWait }

/-- TimedOut in RCV_WAIT (R242). -/
def rcvTimedOut (s : State) : Out :=
  let s1 := countTimeout s
  if retriesExhausted s1 then .next (fail .timeout s1.prog.rxWritten s1) else .next s1

/-- A length prefix in RCV_WAIT (R243). -/
def rcvPrefix (b : List Byte) (s : State) : Out :=
  if s.status.rxTotalValid then .next (logProto s)
  else
    let t := prefixValue b
    let s1 : State :=
      { s with
        prog.rxTotal := t
        status.rxTotalValid := true
        prog.rxExpectedSegs := BitVec.ofNat 32 (ceilDiv t.toNat s.cfg.mss.toNat) }
    if t.toNat > s.rcv.max.toNat then .next (fail .bufferTooSmall s.prog.rxWritten s1)
    else if s.prog.rxWritten.toNat > t.toNat then .next (fail .protocolViolation s.prog.rxWritten s1)
    else if s.prog.rxWritten = t then .next (complete s.prog.rxWritten s1)
    else .next s1

/-- A FIN|ACK in RCV_WAIT (R244): the server runs the reply sequence, the client records the peer's FIN. -/
def rcvFinack (b : List Byte) (s : State) : Out :=
  let s0 := logCsumUnless (verifyWith s.ck b) s
  match s.status.role with
  | .server => .next (replyClose (seqOf b) { s0 with cmd.finalResult := s.prog.rxWritten })
  | .client =>
    .next (complete s.prog.rxWritten { s0 with conn.peerFinSeq := seqOf b, status.finSeen := true })

/-- An ACK in RCV_WAIT (R245): validated, logged on a mismatch, consumed. -/
def rcvAck (b : List Byte) (s : State) : Out :=
  let s0 := logCsumUnless (verifyWith s.ck b) s
  if seqOf b ≠ s.conn.ack ∨ ackOf b ≠ s.conn.seq then .next (logProto s0) else .next s0

/-- `accept_ok(b)` (R247), evaluated left to right. -/
def acceptOk (b : List Byte) (s : State) : Bool :=
  wellSized s.cfg.mss b && verifyWith s.ck b && decide (seqOf b = s.conn.ack) &&
  decide (s.prog.rxWritten.toNat + (b.length - 32) ≤ s.rcv.max.toNat) &&
  (!s.status.rxTotalValid || decide (s.prog.rxWritten.toNat + (b.length - 32) ≤ s.prog.rxTotal.toNat))

/-- The host address an accepted payload is written to (R248): `rcv_dst + RX_WRITTEN`. -/
def acceptAddr (s : State) : Nat := s.rcv.dst.toNat + s.prog.rxWritten.toNat

/-- An accepted data segment (R248). -/
def rcvAccept (b : List Byte) (s : State) : Out :=
  memWrite s (acceptAddr s) (payloadOf b) fun s0 =>
    let n := BitVec.ofNat 32 (b.length - 32)
    let s1 : State :=
      { s0 with
        prog.rxWritten := s.prog.rxWritten + n
        conn.ack := s.conn.ack + n
        conn.currWindow := minWindow s.cfg.initWindow (s.rcv.max - (s.prog.rxWritten + n)) }
    let s2 := transmitCtl ctlAck s1
    if s2.status.rxTotalValid = true ∧ s2.prog.rxWritten = s2.prog.rxTotal then
      .next (complete s2.prog.rxWritten s2)
    else .next s2

/-- A rejected data datagram (R249): the duplicate ack. -/
def rcvReject (b : List Byte) (s : State) : Out :=
  let s1 := transmitCtl ctlAck s
  let s2 : State := { s1 with count.rxDup := s.count.rxDup + 1 }
  .next (logCsumUnless (!wellSized s.cfg.mss b || verifyWith s.ck b) s2)

/-- RCV_WAIT (R241, R242, R246). -/
def rxRcvWait (e : RxEvent) (s : State) : Out :=
  match e with
  | .timedOut => rcvTimedOut s
  | .datagram b _ =>
    let s0 : State := { s with consecTo := 0 }
    match classify b with
    | .pfx => rcvPrefix b s0
    | .finack => rcvFinack b s0
    | .ack => rcvAck b s0
    | .syn | .synack | .ctrlOther => .next (logProto s0)
    | .data => if acceptOk b s0 then rcvAccept b s0 else rcvReject b s0

end Sys2Proof.Machine
end

