-- ==== Sys2Proof/Machine/Dispatch.lean ====
section
/-! DEFINITION. The issue part of each command, one arm per constructor of Instr. -/

namespace Sys2Proof.Machine

/-- The issue part of command `i` (R120), in a state whose operands are latched. -/
def exec (i : Instr) (s : State) : Host.Outcome State Fault Refusal :=
  match i with
  | .openConn => Sys2Proof.Machine.execOpen s
  | .connect => Sys2Proof.Machine.execConnect s
  | .listen => Sys2Proof.Machine.execListen s
  | .accept => Sys2Proof.Machine.execAccept s
  | .send => Sys2Proof.Machine.execSend s
  | .recv => Sys2Proof.Machine.execRecv s
  | .shutdown => Sys2Proof.Machine.execShutdown s
  | .buildHeader => Sys2Proof.Machine.execBuildHeader s
  | .sealSegment => Sys2Proof.Machine.execSeal s
  | .verify => Sys2Proof.Machine.execVerify s
  | .classify => Sys2Proof.Machine.execClassify s

end Sys2Proof.Machine
end

