-- ==== Sys2Proof/Machine/CommandPort.lean ====
section
/-! DEFINITION. The command port and the other inputs: which event comes next, issue, register reads and writes, host
accesses to memory, and the event dispatch of R132 (R34, R61, R74, R120 to R133). -/

namespace Sys2Proof.Machine

/-! ### Issue (R120, R121, R125) -/

/-- Issue of the command word `w` in IDLE (R120): latch, reserved opcode (R125), then the command. -/
def issue (w : Word) (s : State) : Out :=
  match decode w with
  | .error _ => .next (fail .illegalCommand 0 (latch (opcodeOf w) s))
  | .ok i => exec i (latch (opcodeOf w) s)

/-- A write to CMD: issue in IDLE (R120), CMD_OVERRUN otherwise (R121). -/
def writeCmd (w : Word) (s : State) : Out :=
  if s.status.phase = .idle then issue w s else .next { s with status.cmdOverrun := true }

/-! ### The register space (R34, R44, R61, R126 to R128) -/

/-- The register at a word offset (R34). -/
def Reg.ofOffset (o : Nat) : Reg :=
  match o with
  | 0x00 => .id
  | 0x04 => .cfgMss
  | 0x08 => .cfgInitWindow
  | 0x0C => .cfgInitCwnd
  | 0x10 => .cfgInitSsthresh
  | 0x14 => .cfgAckTimeoutUs
  | 0x18 => .cfgMaxRetries
  | 0x20 => .cmd
  | 0x24 => .arg0
  | 0x28 => .arg1
  | 0x2C => .result
  | 0x30 => .status
  | 0x34 => .ctrl
  | 0x40 => .seqNumber
  | 0x44 => .ackNumber
  | 0x48 => .cwnd
  | 0x4C => .ssthresh
  | 0x50 => .window
  | 0x54 => .peerAddr
  | 0x58 => .peerFinSeq
  | 0x5C => .txDupCount
  | 0x60 => .rxDupCount
  | 0x64 => .timeoutCount
  | 0x68 => .halveCount
  | 0x6C => .roundStart
  | 0x70 => .txDelivered
  | 0x74 => .rxWritten
  | 0x78 => .rxTotal
  | 0x7C => .rxExpectedSegs
  | _ => .reserved

/-- The value a host read of the register returns (R34 to R44, R126). -/
def readReg (r : Reg) (s : State) : Word :=
  match r with
  | .id => 0x4D544350#32
  | .cfgMss => s.cfg.mss
  | .cfgInitWindow => s.cfg.initWindow.setWidth 32
  | .cfgInitCwnd => s.cfg.initCwnd
  | .cfgInitSsthresh => s.cfg.initSsthresh
  | .cfgAckTimeoutUs => s.cfg.ackTimeoutUs
  | .cfgMaxRetries => s.cfg.maxRetries
  | .cmd => 0
  | .arg0 => s.arg0
  | .arg1 => s.arg1
  | .result => s.result
  | .status => statusWord s
  | .ctrl => ctrlWord s
  | .seqNumber => s.conn.seq
  | .ackNumber => s.conn.ack
  | .cwnd => s.conn.cwnd
  | .ssthresh => s.conn.ssthresh
  | .window => s.conn.peerWindow ++ s.conn.currWindow
  | .peerAddr => s.conn.peerAddr
  | .peerFinSeq => s.conn.peerFinSeq
  | .txDupCount => s.count.txDup
  | .rxDupCount => s.count.rxDup
  | .timeoutCount => s.count.timeout
  | .halveCount => s.count.halve
  | .roundStart => s.prog.roundStart
  | .txDelivered => s.prog.txDelivered
  | .rxWritten => s.prog.rxWritten
  | .rxTotal => s.prog.rxTotal
  | .rxExpectedSegs => s.prog.rxExpectedSegs
  | .reserved => 0

/-- A host write to the register (R34, R71, R127, R128): read-only registers and reserved offsets ignore it. -/
def writeReg (r : Reg) (v : Word) (s : State) : Out :=
  match r with
  | .cmd => writeCmd v s
  | .arg0 => .next { s with arg0 := v }
  | .arg1 => .next { s with arg1 := v }
  | .status => .next (writeStatus v s)
  | .ctrl => .next (writeCtrl v s)
  | .id | .cfgMss | .cfgInitWindow | .cfgInitCwnd | .cfgInitSsthresh | .cfgAckTimeoutUs | .cfgMaxRetries
  | .result | .seqNumber | .ackNumber | .cwnd | .ssthresh | .window | .peerAddr | .peerFinSeq
  | .txDupCount | .rxDupCount | .timeoutCount | .halveCount
  | .roundStart | .txDelivered | .rxWritten | .rxTotal | .rxExpectedSegs | .reserved => .next s

/-! ### Host accesses to host memory (R74) -/

/-- The ranges `[a, a+n)` and `[b, b+m)` share a byte. -/
def rangesOverlap (a n b m : Nat) : Bool :=
  decide (n ≠ 0) && decide (m ≠ 0) && decide (a < b + m) && decide (b < a + n)

/-- R74 (b): the range meets the SEND source range of the running command. -/
def inSendSource (s : State) (addr n : Nat) : Bool :=
  busy s && decide (s.cmd.op = Instr.send.opcode) && rangesOverlap addr n s.snd.src.toNat s.snd.len.toNat

/-- R74 (b): the range meets the RECV destination range of the running command. -/
def inRecvDest (s : State) (addr n : Nat) : Bool :=
  busy s && decide (s.cmd.op = Instr.recv.opcode) && rangesOverlap addr n s.rcv.dst.toNat s.rcv.max.toNat

/-- A host write to its memory (R63, R74, I9). -/
def hostWrite (addr : Nat) (bs : List Byte) (s : State) : Out :=
  if !hostRangeOk addr bs.length then .refused (.hostAddress addr bs.length)
  else if inSendSource s addr bs.length || inRecvDest s addr bs.length then
    .refused (.hostRace .write addr bs.length)
  else .next { s with mem := s.mem.writeBytes addr bs }

/-- A host read of its memory (R63, R74, I9): no state changes. -/
def hostRead (addr n : Nat) (s : State) : Out :=
  if !hostRangeOk addr n then .refused (.hostAddress addr n)
  else if inRecvDest s addr n then .refused (.hostRace .read addr n)
  else .next s

/-! ### RX events (R131, R132) -/

/-- recv_buffer holds the datagram of the event being processed (R33, R272; log entry 9). -/
def storeDatagram (e : RxEvent) (s : State) : State :=
  match e with
  | .datagram b _ => { s with recvBuffer := b.take (32 + s.cfg.mss.toNat) }
  | .timedOut => s

/-- The event dispatch of R132. In IDLE the engine takes no RX event (R131). -/
def dispatchEvent (e : RxEvent) (s : State) : Out :=
  match s.status.phase with
  | .idle => .next s
  | .connWaitSynack => rxConnWaitSynack e s
  | .accWaitSyn => rxAccWaitSyn e s
  | .accWaitAck => rxAccWaitAck e s
  | .sndWaitAck => rxSndWaitAck e s
  | .rcvWait => rxRcvWait e s
  | .waitFinalAck => rxWaitFinalAck e s
  | .shdWaitAck => rxShdWaitAck e s
  | .shdWaitFin => rxShdWaitFin e s

/-- One RX event taken in a wait phase (R131, R272). -/
def rxEvent (e : RxEvent) (s : State) : Out :=
  match e with
  | .datagram b _ =>
    if e.wf s.cfg then dispatchEvent e (storeDatagram e s) else .refused (.rxTooLong b.length)
  | .timedOut => dispatchEvent e s

/-! ### The order of events (R131, R297, R279) -/

/-- The event is one the Transport delivers. -/
def Input.isRx : Input → Bool
  | .rx _ => true
  | .regWrite _ _ _ | .regRead _ _ | .memWrite _ _ | .memRead _ _ | .lend _ | .hwReset => false

/-- The next event the engine takes, and the events left: the first of the serialised order (R297). In IDLE no RX
event is taken (R131); the Transport keeps those it holds, in their order, for a later wait phase (R279). -/
def takeNext (ph : Phase) : List Input → Option (Input × List Input)
  | [] => none
  | i :: rest =>
    if ph = .idle ∧ i.isRx = true then
      match takeNext ph rest with
      | none => none
      | some (j, left) => some (j, i :: left)
    else some (i, rest)

/-- The effect of one event on the state that no longer lists it. -/
def applyInput (i : Input) (s : State) : Out :=
  match i with
  | .regWrite o size v =>
    if regAccessOk o size then writeReg (Reg.ofOffset o) v s else .refused (.badRegisterAccess o size)
  | .regRead o size =>
    if regAccessOk o size then .next { s with readData := readReg (Reg.ofOffset o) s }
    else .refused (.badRegisterAccess o size)
  | .memWrite addr bs => hostWrite addr bs s
  | .memRead addr n => hostRead addr n s
  | .lend rs => .next { s with lent := rs }
  | .rx e => rxEvent e s
  | .hwReset => .next (hardwareReset s)

/-- One step of the machine: take the next event and run it. With no event to take, nothing changes (R130, R306). -/
def stepOnce (s : State) : Out :=
  match takeNext s.status.phase s.inputs with
  | none => .next s
  | some (i, left) => applyInput i { s with inputs := left }

/-- `s` with a write of the command word `w` to CMD as the next event the engine takes (log entry 12). -/
def placeCommand (s : State) (w : Word) : State :=
  { s with status.phase := .idle, inputs := .regWrite 0x20 4 w :: s.inputs }

end Sys2Proof.Machine
end

