-- ==== Sys2Proof/Machine/Step.lean ====
section
/-! DEFINITION. One step of the machine, and a command placed where the next step takes it. -/

namespace Sys2Proof.Machine

/-- One step: the next event of the serialised order is taken and run to the end as one transition (R133, R297). -/
def step : State → Host.Outcome State Fault Refusal := stepOnce

/-- `s` with the command word `w` written to CMD as its next event (R100), and with PHASE = IDLE, in which alone a
CMD write issues (R120): the next step issues exactly that command (log entry 12). -/
def State.withFetchWord (s : State) (nbits w : Nat) : State := placeCommand s (BitVec.ofNat 32 (w % 2 ^ nbits))

end Sys2Proof.Machine
end

