-- ==== Sys2Proof/Safety.lean ====
section
/-! DEFINITION. The terms the statements use: what the host has lent, the
invariant of the engine (R30, R52, R179, R180, R225, R251), and two engines joined by a lossless link (R277). -/

namespace Sys2Proof.Machine

/-! ### Lent memory (R62) -/

/-- The host has lent every byte of `[a, a+n)`, which lies inside the address space, for accesses of kind `k`. -/
def Lends (s : State) (k : Access) (a n : Nat) : Prop :=
  a + n ≤ 4294967296 ∧
    ∀ x, a ≤ x → x < a + n → ∃ r ∈ s.lent, r.kind = k ∧ r.base ≤ x ∧ x < r.base + r.len

/-! ### The invariant of the engine -/

/-- The CONN_STATE values in which each phase is possible (R45, R122, R163, R166, R170, R175, R180). ClosingByHost is
in none of them. -/
def phaseConnOk : Phase → ConnState → Bool
  | .idle, c => decide (c ≠ .closingByHost)
  | .connWaitSynack, c => decide (c = .invalid)
  | .accWaitSyn, c => decide (c = .listen)
  | .accWaitAck, c => decide (c = .listen)
  | .sndWaitAck, c => decide (c = .established)
  | .rcvWait, c => decide (c = .established)
  | .waitFinalAck, c => decide (c = .closingByPeer)
  | .shdWaitAck, c => decide (c = .closingByPeer)
  | .shdWaitFin, c => decide (c = .closingByPeer)

/-- The commands that can be running in each phase (R45, R46). -/
def phaseOpOk : Phase → BitVec 8 → Bool
  | .idle, _ => true
  | .connWaitSynack, o => decide (o = Instr.connect.opcode)
  | .accWaitSyn, o => decide (o = Instr.accept.opcode)
  | .accWaitAck, o => decide (o = Instr.accept.opcode)
  | .sndWaitAck, o => decide (o = Instr.send.opcode)
  | .rcvWait, o => decide (o = Instr.recv.opcode)
  | .waitFinalAck, o => decide (o = Instr.recv.opcode) || decide (o = Instr.shutdown.opcode)
  | .shdWaitAck, o => decide (o = Instr.shutdown.opcode)
  | .shdWaitFin, o => decide (o = Instr.shutdown.opcode)

/-- The invariants of a SEND that waits for an acknowledgement (R203, R224, R225). Offsets are from `snd_base`. -/
structure SendInv (s : State) : Prop where
  /-- R203, R224: a round holds 1 to 65535 bytes. -/
  roundPos : 1 ≤ s.snd.roundLen.toNat
  roundSmall : s.snd.roundLen.toNat ≤ 65535
  /-- R202: `round_n = ceil(R / MSS)`. -/
  roundCount : s.snd.roundN.toNat = ceilDiv s.snd.roundLen.toNat s.cfg.mss.toNat
  /-- R225 (3). -/
  waiting : s.snd.waitK.toNat < s.snd.roundN.toNat
  /-- R224: at most one duplicate per chunk. -/
  dups : s.snd.roundDup.toNat ≤ s.snd.waitK.toNat
  /-- R225 (3). -/
  transmitted : (off s s.snd.roundSeq).toNat + s.snd.roundLen.toNat ≤ s.snd.maxOff.toNat
  /-- R225 (1). -/
  insidePayload : s.snd.maxOff.toNat ≤ s.snd.len.toNat
  /-- R215: SEQ_NUMBER stands between the round's start and the last chunk whose turn has passed. -/
  seqLow : (off s s.snd.roundSeq).toNat ≤ (off s s.conn.seq).toNat
  seqHigh : (off s s.conn.seq).toNat ≤
    (off s s.snd.roundSeq).toNat + min (s.snd.waitK.toNat * s.cfg.mss.toNat) s.snd.roundLen.toNat
  /-- R218: the recorded ack lies inside what has been sent. -/
  recorded : s.snd.recValid = true → (off s s.snd.recAck).toNat ≤ s.snd.maxOff.toNat
  /-- R43, R202. -/
  started : s.prog.roundStart = off s s.snd.roundSeq
  delivered : s.prog.txDelivered = off s s.snd.roundSeq

/-- The invariants of a RECV that waits (R251). -/
structure RecvInv (s : State) : Prop where
  /-- R251 (1). -/
  inBuffer : s.prog.rxWritten.toNat ≤ s.rcv.max.toNat
  /-- R251 (1); a RECV that has all the announced bytes has completed (R243, R248). -/
  inTotal : s.status.rxTotalValid = true → s.prog.rxWritten.toNat < s.prog.rxTotal.toNat
  totalFits : s.status.rxTotalValid = true → s.prog.rxTotal.toNat ≤ s.rcv.max.toNat
  /-- R251 (4). -/
  window : s.conn.currWindow.toNat = min s.cfg.initWindow.toNat (s.rcv.max.toNat - s.prog.rxWritten.toNat)

/-- What holds of every engine whose parameters meet R5, at reset and after every step. -/
structure EngineInv (s : State) : Prop where
  /-- R6: the parameters meet the constraints of R5, the numbers and CHECKSUM. -/
  params : s.cfg.wf = true
  checksum : SingleBitSensitive s.cfg.checksum.eval
  /-- Host memory is in canonical form. -/
  memory : Memory.wf s.mem = true
  /-- R30. -/
  cwndPos : 1 ≤ s.conn.cwnd.toNat
  ssthreshPos : 1 ≤ s.conn.ssthresh.toNat
  /-- Each phase only in its CONN_STATE; ClosingByHost never (R180). -/
  phaseConn : phaseConnOk s.status.phase s.status.connState = true
  phaseOp : phaseOpOk s.status.phase s.cmd.op = true
  /-- R33, R179: recv_buffer is allocated from Established to Closed. -/
  rxbuf : s.status.rxbufValid = true ↔ (s.status.connState = .established ∨ s.status.connState = .closingByPeer)
  /-- R22. -/
  listenRole : s.status.connState = .listen → s.status.role = .server
  connectRole : s.status.phase = .connWaitSynack → s.status.role = .client
  /-- R14, R120: DONE and ERR are set only while no command runs. -/
  doneIdle : s.status.done = true → s.status.phase = .idle
  errIdle : s.status.err = true → s.status.phase = .idle
  /-- R291: ERR comes with a code. -/
  errCoded : s.status.err = true → s.status.errCode ≠ .none
  /-- R295. -/
  noAllocationFailure : s.status.errCode ≠ .allocationFailure
  /-- R244: only a client that has been Established records a FIN. -/
  finSeen : s.status.finSeen = true →
    s.status.role = .client ∧ s.status.connState ≠ .invalid ∧ s.status.connState ≠ .listen
  /-- R52. -/
  freshWindow : (s.status.connState = .invalid ∨ s.status.connState = .listen) →
    s.conn.currWindow = s.cfg.initWindow
  /-- R43. -/
  expectedSegs : s.prog.rxExpectedSegs.toNat = ceilDiv s.prog.rxTotal.toNat s.cfg.mss.toNat
  noTotal : s.status.rxTotalValid = false → s.prog.rxTotal = 0
  /-- R33: recv_buffer holds at most `32 + MSS` bytes. -/
  recvBuffer : s.recvBuffer.length ≤ 32 + s.cfg.mss.toNat
  /-- R209, R242: a running SEND or RECV is below the retry bound. -/
  retries : (s.status.phase = .sndWaitAck ∨ s.status.phase = .rcvWait) → s.cfg.maxRetries ≠ 0 →
    s.consecTo.toNat < s.cfg.maxRetries.toNat
  sending : s.status.phase = .sndWaitAck → SendInv s
  receiving : s.status.phase = .rcvWait → RecvInv s

/-- The class each handshake and teardown wait phase waits for (R162, R165, R167, R171, R173, R176). -/
def awaited : Phase → Option DgramClass
  | .connWaitSynack => some .synack
  | .accWaitSyn => some .syn
  | .accWaitAck => some .ack
  | .waitFinalAck => some .ack
  | .shdWaitAck => some .ack
  | .shdWaitFin => some .finack
  | .idle | .sndWaitAck | .rcvWait => none

/-- The outcome of the segment `b` when its class is the awaited one and a value in it is wrong (R162, R167, R171, R176,
R169): SEQUENCE_MISMATCH with RESULT `r`, and CSUM_LOG when it fails verify; nothing else changes. -/
def mismatch (r : Word) (b : List Byte) (s : State) : State :=
  fail .sequenceMismatch r
    { s with
      recvBuffer := b
      status :=
        { s.status with csumLog := if verifyWith s.cfg.checksum.eval b then s.status.csumLog else true } }

/-- A sealed control segment and its destination (R85, R87, R90, R141, R271). -/
def controlTo (p : Params) (dest seq ack : Word) (ctrl win : Half) : Tx :=
  ⟨dest, sealWith p.checksum.eval (hdr seq ack ctrl win 0)⟩

/-- Chunk `i` of the round of `r` bytes that starts `d` bytes into the payload with sequence number `seq`, and its
destination (R204, R205). -/
def chunkTo (s : State) (seq : Word) (d r i : Nat) : Tx :=
  let mss := s.cfg.mss.toNat
  let n := min mss (r - i * mss)
  ⟨s.conn.peerAddr,
    sealWith s.cfg.checksum.eval
      (hdr (seq + BitVec.ofNat 32 (i * mss)) s.conn.ack 0x0000#16 s.conn.currWindow (BitVec.ofNat 32 n) ++
        s.mem.readBytes (s.snd.src.toNat + d + i * mss) n)⟩

/-- A datagram the engine may transmit: a 4-byte prefix, or a sealed segment of 32 to `32 + MSS` bytes
(R98, R152, R270). -/
def goodDatagram (p : Params) (b : List Byte) : Bool :=
  decide (b.length = 4) ||
    (decide (32 ≤ b.length) && decide (b.length ≤ 32 + p.mss.toNat) && verifyWith p.checksum.eval b)

/-! ### A pair of engines and a lossless link (R277) -/

/-- Two engines and the datagrams in flight between them, oldest first: `ab` those A sent toward B, `ba` those B sent
toward A. `ha` is A's handle, the destination B names A by and the source B sees on A's datagrams; `hb` is B's. -/
structure Link where
  a : State
  b : State
  ab : List (List Byte)
  ba : List (List Byte)
  ha : Word
  hb : Word
  deriving DecidableEq, Repr

/-- What a step from `s` to `t` handed to the Transport, oldest first, each with its destination (R270, R271). -/
def sentBy (s t : State) : List Tx := t.tx.drop s.tx.length

/-- The datagrams a step from `s` to `t` handed to the Transport toward the handle `h` (R277). -/
def sentTo (h : Word) (s t : State) : List (List Byte) :=
  ((sentBy s t).filter fun d => d.dest = h).map Tx.bytes

/-- One delivery of a lossless link (R277): the oldest datagram in flight in one direction reaches an engine that is
in a wait phase, unaltered, under the sender's handle. What it transmits in answer toward the other engine's handle
joins the datagrams in flight to that engine; what it transmits toward any other handle is on no path of this link and
reaches neither engine. Nothing else is delivered, and no TimedOut ever is. -/
inductive Link.Delivers : Link → Link → Prop where
  | toB (l : Link) (d : List Byte) (rest : List (List Byte)) (b' : State)
      (hw : l.b.status.phase ≠ .idle) (hd : l.ab = d :: rest) (hs : rxEvent (.datagram d l.ha) l.b = .next b') :
      Link.Delivers l { l with b := b', ab := rest, ba := l.ba ++ sentTo l.ha l.b b' }
  | toA (l : Link) (d : List Byte) (rest : List (List Byte)) (a' : State)
      (hw : l.a.status.phase ≠ .idle) (hd : l.ba = d :: rest) (hs : rxEvent (.datagram d l.hb) l.a = .next a') :
      Link.Delivers l { l with a := a', ba := rest, ab := l.ab ++ sentTo l.hb l.a a' }

/-- `n` deliveries, one after another. -/
inductive Link.Runs : Nat → Link → Link → Prop where
  | zero (l : Link) : Link.Runs 0 l l
  | succ (n : Nat) (l m r : Link) (h1 : Link.Delivers l m) (h2 : Link.Runs n m r) : Link.Runs (n + 1) l r

end Sys2Proof.Machine
end

