-- ==== Sys2Proof/Certificates/Slice0/Obligations.lean ====
section
/-! DEFINITION. The statements for the provers. Each formalises rules of spec/; its docstring names them. -/

open Sys2Proof Sys2Proof.Machine

/-! ### Encodings -/

/-- R80, R81: command words written out from the opcode map decode to their commands; CMD[31:8] is ignored; reserved
opcodes are rejected by name. -/
def Obligations.CommandWordsDecode : Prop :=
  decode 0x00000001#32 = .ok .openConn ∧ decode 0x00000002#32 = .ok .connect ∧
  decode 0x00000003#32 = .ok .listen ∧ decode 0x00000004#32 = .ok .accept ∧
  decode 0x00000005#32 = .ok .send ∧ decode 0x00000006#32 = .ok .recv ∧
  decode 0x00000007#32 = .ok .shutdown ∧ decode 0x00000010#32 = .ok .buildHeader ∧
  decode 0x00000011#32 = .ok .sealSegment ∧ decode 0x00000012#32 = .ok .verify ∧
  decode 0x00000013#32 = .ok .classify ∧
  decode 0x00000105#32 = .ok .send ∧ decode 0xFFFFFF03#32 = .ok .listen ∧
  decode 0x00000000#32 = .error (.reservedOpcode 0x00#8) ∧ decode 0x00000014#32 = .error (.reservedOpcode 0x14#8) ∧
  decode 0x00000008#32 = .error (.reservedOpcode 0x08#8) ∧ decode 0x000000FF#32 = .error (.reservedOpcode 0xFF#8)

/-- R80, R81: the decoder reads CMD[7:0] and nothing else, rejects exactly the reserved opcodes, and gives back every
encoded command. That an encoded word has CMD[31:8] = 0 is the encoder's choice (log entry 11). -/
def Obligations.DecodeReadsOnlyTheOpcodeByte : Prop :=
  (∀ w i, decode w = .ok i ↔ w.extractLsb' 0 8 = i.opcode) ∧
  (∀ w, (∃ e, decode w = .error e) ↔
    (w.toNat % 256 = 0 ∨ (0x08 ≤ w.toNat % 256 ∧ w.toNat % 256 ≤ 0x0F) ∨ 0x14 ≤ w.toNat % 256)) ∧
  (∀ i, decode (encode i) = .ok i ∧ (encode i).toNat < 256)

/-- R84, R85, R89, R140, R142: every field of a sealed segment reads back at its place, the reserved bytes are zero, the payload
follows the 32-byte header, and the checksum is that of the segment with its checksum field zero. R145, R146: the 4-byte
length prefix, most significant byte first, reads back and is classed PREFIX. -/
def Obligations.HeaderAndPrefixReadBack : Prop :=
  (∀ (ck : List Byte → Word) (seq ack dlen : Word) (ctrl win : Half) (p : List Byte),
    let b := sealWith ck (hdr seq ack ctrl win dlen ++ p)
    b.length = 32 + p.length ∧ seqOf b = seq ∧ ackOf b = ack ∧ ctrlOf b = ctrl ∧ winOf b = win ∧ dlenOf b = dlen ∧
    payloadOf b = p ∧ (∀ i, 16 ≤ i → i < 28 → byteAt b i = 0) ∧
    csumOf b = ck (be32 seq ++ be32 ack ++ be16 ctrl ++ be16 win ++ be32 dlen ++ zeros 16 ++ p)) ∧
  (∀ l : Word, prefixValue (lengthPrefix l) = l ∧ (lengthPrefix l).length = 4 ∧ classify (lengthPrefix l) = .pfx ∧
    l.toNat = 16777216 * (byteAt (lengthPrefix l) 0).toNat + 65536 * (byteAt (lengthPrefix l) 1).toNat +
      256 * (byteAt (lengthPrefix l) 2).toNat + (byteAt (lengthPrefix l) 3).toNat)

/-- R151: a sealed segment verifies; flipping one bit outside the checksum field makes verify false, for every
CHECKSUM with the single-bit property of R5, and so with the CHECKSUM of every engine, which has it (R5, R6). R142: sealing replaces bytes 28 to 31 and nothing else, does not depend on
what they held, and is idempotent. -/
def Obligations.SealAndVerifyAgree : Prop :=
  ((∀ (ck : List Byte → Word) (b : List Byte), 32 ≤ b.length → verifyWith ck (sealWith ck b) = true) ∧
  (∀ (ck : List Byte → Word) (b : List Byte) (p : Nat), SingleBitSensitive ck → 32 ≤ b.length → p < 8 * b.length →
    ¬ (28 ≤ p / 8 ∧ p / 8 < 32) → verifyWith ck (flipBit (sealWith ck b) p) = false) ∧
  (∀ (s : State) (b : List Byte) (p : Nat), 32 ≤ b.length → p < 8 * b.length → ¬ (28 ≤ p / 8 ∧ p / 8 < 32) →
    verifyWith s.ck (flipBit (sealWith s.ck b) p) = false)) ∧
  (∀ (ck : List Byte → Word) (b : List Byte), 32 ≤ b.length →
    (sealWith ck b).length = b.length ∧
    (∀ i, i < 28 ∨ 32 ≤ i → byteAt (sealWith ck b) i = byteAt b i) ∧
    csumOf (sealWith ck b) = ck (csumInput b) ∧
    sealWith ck (sealWith ck b) = sealWith ck b ∧
    (∀ b' : List Byte, b'.length = b.length → (∀ i, i < 28 ∨ 32 ≤ i → byteAt b' i = byteAt b i) →
      sealWith ck b' = sealWith ck b))

/-- R94, R95, R97: the class and its code, by the length and for 32 bytes by the control field. -/
def Obligations.ClassifyByLengthThenControl : Prop :=
  (∀ b : List Byte, b.length = 4 → classify b = .pfx) ∧
  (∀ b : List Byte, b.length ≠ 4 → b.length ≠ 32 → classify b = .data) ∧
  (∀ b : List Byte, b.length = 32 →
    ((ctrlOf b).getLsbD 11 = true → (ctrlOf b).getLsbD 14 = true → classify b = .finack) ∧
    (ctrlOf b = 0x0800#16 → classify b = .ack) ∧
    (ctrlOf b = 0x2000#16 → classify b = .syn) ∧
    (ctrlOf b = 0x2800#16 → classify b = .synack) ∧
    (¬ ((ctrlOf b).getLsbD 11 = true ∧ (ctrlOf b).getLsbD 14 = true) → ctrlOf b ≠ 0x0800#16 →
      ctrlOf b ≠ 0x2000#16 → ctrlOf b ≠ 0x2800#16 → classify b = .ctrlOther)) ∧
  DgramClass.pfx.code = 0#32 ∧ DgramClass.finack.code = 1#32 ∧ DgramClass.ack.code = 2#32 ∧
  DgramClass.syn.code = 3#32 ∧ DgramClass.synack.code = 4#32 ∧ DgramClass.ctrlOther.code = 5#32 ∧
  DgramClass.data.code = 6#32

/-! ### Steps, issue and the command port -/

/-- R120: a write to CMD in IDLE latches the opcode and the operands, clears DONE, ERR and ERR_CODE, and runs the
command it decodes to; so does a command placed by `withFetchWord` (log entry 12). -/
def Obligations.StepIssuesTheDecodedCommand : Prop :=
  (∀ (s : State) (left : List Input) (w : Word) (i : Instr),
    s.status.phase = .idle → takeNext .idle s.inputs = some (.regWrite 0x20 4 w, left) → decode w = .ok i →
    step s = exec i
      { s with
        inputs := left
        cmd := { op := w.extractLsb' 0 8, arg0L := s.arg0, arg1L := s.arg1, finalResult := s.cmd.finalResult }
        status := { s.status with done := false, err := false, errCode := .none } }) ∧
  (∀ (s : State) (nbits w : Nat) (i : Instr),
    decodeTableWord nbits w = some i →
    step (s.withFetchWord nbits w) = exec i
      { s with
        cmd := { op := i.opcode, arg0L := s.arg0, arg1L := s.arg1, finalResult := s.cmd.finalResult }
        status := { s.status with done := false, err := false, errCode := .none, phase := .idle } })

/-- R131, R132: in a wait phase a step takes exactly one event, the first in the order, and an RX event runs the rule
of the phase. The list that holds the order is the model's (log entry 3). -/
def Obligations.StepTakesOneEventInAWaitPhase : Prop :=
  ∀ (s : State) (i : Input) (rest : List Input), s.status.phase ≠ .idle → s.inputs = i :: rest →
    step s = applyInput i { s with inputs := rest } ∧
    (∀ e, i = .rx e → step s = rxEvent e { s with inputs := rest })

/-- R131, R279: in IDLE the engine takes no RX event. Two things here are the model's, not those rules': with only RX
events held, the step answers the same state (log entry 4, DEDUCED); the events held stay in the list, in their order,
and the first other event is taken (log entry 3, DESIGN CHOICE). -/
def Obligations.IdleTakesNoRxEvent : Prop :=
  (∀ (s : State), s.status.phase = .idle → (∀ i ∈ s.inputs, i.isRx = true) → step s = .next s) ∧
  (∀ (s : State) (held rest : List Input) (i : Input), s.status.phase = .idle → s.inputs = held ++ i :: rest →
    (∀ j ∈ held, j.isRx = true) → i.isRx = false → step s = applyInput i { s with inputs := held ++ rest })

/-- R125: a reserved opcode fails at once with ILLEGAL_COMMAND; only cmd_op, the latched operands, RESULT and the
completion bits of STATUS are written, and nothing is transmitted. R121: a CMD write while busy sets CMD_OVERRUN and
changes nothing else. -/
def Obligations.RejectedCommandsLeaveTheEngine : Prop :=
  (∀ (s : State) (left : List Input) (w : Word) (e : DecodeError),
    s.status.phase = .idle → takeNext .idle s.inputs = some (.regWrite 0x20 4 w, left) → decode w = .error e →
    step s = .next
      { s with
        inputs := left
        result := 0
        cmd := { op := w.extractLsb' 0 8, arg0L := s.arg0, arg1L := s.arg1, finalResult := s.cmd.finalResult }
        status := { s.status with done := true, err := true, errCode := .illegalCommand } }) ∧
  (∀ (s : State) (w : Word) (rest : List Input), s.status.phase ≠ .idle → s.inputs = .regWrite 0x20 4 w :: rest →
    step s = .next { s with inputs := rest, status := { s.status with cmdOverrun := true } })

/-- R14: what `complete` and `fail` write, and that they write nothing else. -/
def Obligations.CompleteAndFailWriteTheOutcome : Prop :=
  ∀ (s : State) (r : Word) (c : ErrCode),
    complete r s =
      { s with result := r, status := { s.status with done := true, err := false, errCode := .none, phase := .idle } } ∧
    fail c r s =
      { s with result := r, status := { s.status with done := true, err := true, errCode := c, phase := .idle } }

/-- R122, R123: the commands and the CONN_STATE they need; in any other state, and for SEAL and VERIFY of fewer than
32 bytes, the command fails with PRECONDITION and RESULT 0 and changes nothing else. -/
def Obligations.PreconditionFailureChangesNothingElse : Prop :=
  ∀ s : State,
    (s.status.connState ≠ .invalid → exec .connect s = .next (fail .precondition 0 s) ∧
      exec .listen s = .next (fail .precondition 0 s)) ∧
    (s.status.connState ≠ .listen → exec .accept s = .next (fail .precondition 0 s)) ∧
    (s.status.connState ≠ .established → exec .send s = .next (fail .precondition 0 s) ∧
      exec .recv s = .next (fail .precondition 0 s) ∧ exec .shutdown s = .next (fail .precondition 0 s)) ∧
    (s.cmd.arg1L.toNat < 32 → exec .sealSegment s = .next (fail .precondition 0 s) ∧
      exec .verify s = .next (fail .precondition 0 s))

/-! ### The register space -/

/-- R34, R35, R37, R44, R126: what a read of each word offset delivers, in every phase, changing nothing else (but the
model's read port, log entry 10). -/
def Obligations.RegisterMapReads : Prop :=
  ∀ (s : State) (left : List Input) (o : Nat),
    takeNext s.status.phase s.inputs = some (.regRead o 4, left) →
    let map : List (Nat × Word) :=
      [(0x00, 0x4D544350#32), (0x04, s.cfg.mss), (0x08, s.cfg.initWindow.setWidth 32), (0x0C, s.cfg.initCwnd),
       (0x10, s.cfg.initSsthresh), (0x14, s.cfg.ackTimeoutUs), (0x18, s.cfg.maxRetries), (0x20, 0#32),
       (0x24, s.arg0), (0x28, s.arg1), (0x2C, s.result), (0x30, statusWord s),
       (0x34, if s.irqEn then 1#32 else 0#32),
       (0x40, s.conn.seq), (0x44, s.conn.ack), (0x48, s.conn.cwnd), (0x4C, s.conn.ssthresh),
       (0x50, s.conn.peerWindow ++ s.conn.currWindow), (0x54, s.conn.peerAddr), (0x58, s.conn.peerFinSeq),
       (0x5C, s.count.txDup), (0x60, s.count.rxDup), (0x64, s.count.timeout), (0x68, s.count.halve),
       (0x6C, s.prog.roundStart), (0x70, s.prog.txDelivered), (0x74, s.prog.rxWritten), (0x78, s.prog.rxTotal),
       (0x7C, s.prog.rxExpectedSegs)]
    (∀ v, (o, v) ∈ map → step s = .next { s with inputs := left, readData := v }) ∧
    ((∀ v, (o, v) ∉ map) → o % 4 = 0 → o ≤ 0xFC → step s = .next { s with inputs := left, readData := 0 })

/-- R21, R22, R40, R45, R50, R291: the bits of STATUS. -/
def Obligations.StatusWordHoldsItsFields : Prop :=
  ∀ s : State,
    let w := statusWord s
    w.getLsbD 0 = decide (s.status.phase ≠ .idle) ∧ w.getLsbD 1 = s.status.done ∧ w.getLsbD 2 = s.status.err ∧
    w.getLsbD 3 = s.status.cmdOverrun ∧
    (w.extractLsb' 4 4).toNat =
      (match s.status.errCode with
        | .none => 0 | .checksumMismatch => 1 | .sequenceMismatch => 2 | .timeout => 3 | .allocationFailure => 4
        | .protocolViolation => 5 | .illegalCommand => 6 | .precondition => 7 | .bufferTooSmall => 8) ∧
    (w.extractLsb' 8 3).toNat =
      (match s.status.connState with
        | .invalid => 0 | .listen => 1 | .established => 2 | .closingByHost => 3 | .closingByPeer => 4
        | .closed => 5) ∧
    w.getLsbD 11 = decide (s.status.role = .server) ∧ w.getLsbD 12 = s.status.finSeen ∧
    w.getLsbD 13 = s.status.csumLog ∧ w.getLsbD 14 = s.status.protoLog ∧ w.getLsbD 15 = s.status.rxbufValid ∧
    (w.extractLsb' 16 4).toNat =
      (match s.status.phase with
        | .idle => 0 | .connWaitSynack => 1 | .accWaitSyn => 2 | .accWaitAck => 3 | .sndWaitAck => 4 | .rcvWait => 5
        | .waitFinalAck => 6 | .shdWaitAck => 7 | .shdWaitFin => 8) ∧
    w.getLsbD 20 = s.status.rxTotalValid ∧ w.extractLsb' 21 11 = 0#11

/-- R127: a write to STATUS clears each W1C bit written as 1 and changes nothing else, in every phase. R128: a write to
ARG0, ARG1 or CTRL stores the value in every phase; a write to a read-only register or a reserved offset is ignored. -/
def Obligations.RegisterWritesStoreClearOrAreIgnored : Prop :=
  (∀ (s : State) (left : List Input) (v : Word),
    takeNext s.status.phase s.inputs = some (.regWrite 0x30 4 v, left) →
    step s = .next
      { s with
        inputs := left
        status :=
          { s.status with
            done := if v.getLsbD 1 then false else s.status.done
            err := if v.getLsbD 2 then false else s.status.err
            cmdOverrun := if v.getLsbD 3 then false else s.status.cmdOverrun
            csumLog := if v.getLsbD 13 then false else s.status.csumLog
            protoLog := if v.getLsbD 14 then false else s.status.protoLog } }) ∧
  (∀ (s : State) (left : List Input) (o : Nat) (v : Word),
    takeNext s.status.phase s.inputs = some (.regWrite o 4 v, left) →
    (o = 0x24 → step s = .next { s with inputs := left, arg0 := v }) ∧
    (o = 0x28 → step s = .next { s with inputs := left, arg1 := v }) ∧
    (o = 0x34 → step s = .next { s with inputs := left, irqEn := v.getLsbD 0 }) ∧
    (o ≠ 0x20 → o ≠ 0x24 → o ≠ 0x28 → o ≠ 0x30 → o ≠ 0x34 → o % 4 = 0 → o ≤ 0xFC →
      step s = .next { s with inputs := left }))

/-- R61: every register access that is not a naturally aligned 32-bit access in `[0x00, 0xFC]` is refused. -/
def Obligations.MisfitRegisterAccessIsRefused : Prop :=
  ∀ (s : State) (left : List Input) (o n : Nat) (v : Word), n ≠ 4 ∨ o % 4 ≠ 0 ∨ 0xFC < o →
    (takeNext s.status.phase s.inputs = some (.regWrite o n v, left) →
      step s = .refused (.badRegisterAccess o n)) ∧
    (takeNext s.status.phase s.inputs = some (.regRead o n, left) → step s = .refused (.badRegisterAccess o n))

/-- R298: the interrupt line is IRQ_EN and DONE; it rises with a completion or when IRQ_EN is set while DONE = 1, and
falls when DONE is cleared, when IRQ_EN is cleared, and at issue. -/
def Obligations.InterruptFollowsEnableAndDone : Prop :=
  ∀ (s : State) (r v : Word) (c : ErrCode) (op : BitVec 8),
    (irq s = true ↔ s.irqEn = true ∧ s.status.done = true) ∧
    irq (complete r s) = s.irqEn ∧ irq (fail c r s) = s.irqEn ∧
    (v.getLsbD 0 = true → irq (writeCtrl v s) = s.status.done) ∧
    (v.getLsbD 0 = false → irq (writeCtrl v s) = false) ∧
    (v.getLsbD 1 = true → irq (writeStatus v s) = false) ∧ irq (latch op s) = false

/-- R74, R327: while SEND runs the host has no move that writes its source range, and while RECV runs none that
touches its destination range; every other host write inside the address space changes those bytes and nothing
else (log entries 13 and 19). -/
def Obligations.HostAccessToABorrowedRangeHasNoMove : Prop :=
  ∀ (s : State) (left : List Input) (a n : Nat) (bs : List Byte), Memory.wf s.mem = true → a + bs.length ≤ 4294967296 →
    let meets := fun (lo len x k : Nat) => ∃ y, x ≤ y ∧ y < x + k ∧ lo ≤ y ∧ y < lo + len
    let sending := s.status.phase ≠ .idle ∧ s.cmd.op = 0x05#8
    let receiving := s.status.phase ≠ .idle ∧ s.cmd.op = 0x06#8
    (takeNext s.status.phase s.inputs = some (.memWrite a bs, left) →
      (sending ∧ meets s.snd.src.toNat s.snd.len.toNat a bs.length) ∨
        (receiving ∧ meets s.rcv.dst.toNat s.rcv.max.toNat a bs.length) →
      step s = .refused (.hostRace .write a bs.length)) ∧
    (a + n ≤ 4294967296 → takeNext s.status.phase s.inputs = some (.memRead a n, left) →
      receiving ∧ meets s.rcv.dst.toNat s.rcv.max.toNat a n → step s = .refused (.hostRace .read a n)) ∧
    (takeNext s.status.phase s.inputs = some (.memWrite a bs, left) →
      ¬ (sending ∧ meets s.snd.src.toNat s.snd.len.toNat a bs.length) →
      ¬ (receiving ∧ meets s.rcv.dst.toNat s.rcv.max.toNat a bs.length) →
      ∃ m, step s = .next { s with inputs := left, mem := m } ∧
        (∀ i, i < bs.length → Memory.get m (a + i) = byteAt bs i) ∧
        (∀ x, x < a ∨ a + bs.length ≤ x → Memory.get m x = s.mem.get x))

/-- R320, R321: hardware reset sets every row of R320 in one step, also in a wait phase, and transmits nothing. The last
clause is the model's, not those rules': reset leaves host memory as it is (log entry 17, DEDUCED). The events to come
are the model's list (log entry 3). -/
def Obligations.HardwareResetSetsEveryRow : Prop :=
  ∀ (s : State) (left : List Input), takeNext s.status.phase s.inputs = some (.hwReset, left) →
    ∃ t, step s = .next t ∧ t.cfg = s.cfg ∧ t.arg0 = 0 ∧ t.arg1 = 0 ∧ t.irqEn = false ∧ t.result = 0 ∧
      t.status =
        { done := false, err := false, cmdOverrun := false, errCode := .none, connState := .invalid, role := .client,
          finSeen := false, csumLog := false, protoLog := false, rxbufValid := false, phase := .idle,
          rxTotalValid := false } ∧
      t.conn =
        { seq := 0, ack := 0, currWindow := s.cfg.initWindow, peerWindow := s.cfg.initWindow, cwnd := s.cfg.initCwnd,
          ssthresh := s.cfg.initSsthresh, peerAddr := 0, peerFinSeq := 0 } ∧
      t.count = { txDup := 0, rxDup := 0, timeout := 0, halve := 0 } ∧
      t.prog = { roundStart := 0, txDelivered := 0, rxWritten := 0, rxTotal := 0, rxExpectedSegs := 0 } ∧
      t.cmd = { op := 0, arg0L := 0, arg1L := 0, finalResult := 0 } ∧
      t.snd =
        { src := 0, len := 0, base := 0, maxOff := 0, roundSeq := 0, roundLen := 0, roundN := 0, waitK := 0,
          roundDup := 0, recAck := 0, recValid := false, caGrown := false } ∧
      t.rcv = { dst := 0, max := 0 } ∧ t.consecTo = 0 ∧ irq t = false ∧ t.tx = s.tx ∧ t.inputs = left ∧ t.mem = s.mem

/-! ### Commands that complete in their issue step -/

/-- R124, R320: OPEN gives the connection record of reset and completes, leaves ARG0, ARG1, CTRL, the CFG registers
and cmd_op, and transmits nothing. -/
def Obligations.OpenRestoresTheConnectionRecord : Prop :=
  ∀ s : State, exec .openConn s = .next
    { s with
      result := 0
      status :=
        { done := true, err := false, cmdOverrun := false, errCode := .none, connState := .invalid, role := .client,
          finSeen := false, csumLog := false, protoLog := false, rxbufValid := false, phase := .idle,
          rxTotalValid := false }
      conn :=
        { seq := 0, ack := 0, currWindow := s.cfg.initWindow, peerWindow := s.cfg.initWindow, cwnd := s.cfg.initCwnd,
          ssthresh := s.cfg.initSsthresh, peerAddr := 0, peerFinSeq := 0 }
      count := { txDup := 0, rxDup := 0, timeout := 0, halve := 0 }
      prog := { roundStart := 0, txDelivered := 0, rxWritten := 0, rxTotal := 0, rxExpectedSegs := 0 }
      cmd := { op := s.cmd.op, arg0L := 0, arg1L := 0, finalResult := 0 }
      snd :=
        { src := 0, len := 0, base := 0, maxOff := 0, roundSeq := 0, roundLen := 0, roundN := 0, waitK := 0,
          roundDup := 0, recAck := 0, recValid := false, caGrown := false }
      rcv := { dst := 0, max := 0 }
      consecTo := 0 }

/-- R160: LISTEN in Invalid makes this end a server in Listen and completes with RESULT 0; nothing else changes.
Outside Invalid it fails with PRECONDITION. -/
def Obligations.ListenBindsTheServer : Prop :=
  ∀ s : State,
    (s.status.connState = .invalid → exec .listen s = .next
      { s with
        result := 0
        status :=
          { s.status with
            done := true, err := false, errCode := .none, phase := .idle, role := .server, connState := .listen } }) ∧
    (s.status.connState ≠ .invalid → exec .listen s = .next (fail .precondition 0 s))

/-- R147: BUILD_HEADER stores the sealed header of the current registers at `arg1_l`, returns its checksum, and
changes no other byte of memory and no other register. -/
def Obligations.BuildHeaderStoresASealedHeader : Prop :=
  ∀ s : State, Memory.wf s.mem = true → Lends s .write s.cmd.arg1L.toNat 32 →
    let h := sealWith s.cfg.checksum.eval
      (hdr s.conn.seq s.conn.ack (s.cmd.arg0L.extractLsb' 0 16) s.conn.currWindow 0)
    ∃ m, exec .buildHeader s = .next
        { s with
          mem := m
          result := csumOf h
          status := { s.status with done := true, err := false, errCode := .none, phase := .idle } } ∧
      (∀ i, i < 32 → Memory.get m (s.cmd.arg1L.toNat + i) = byteAt h i) ∧
      (∀ x, x < s.cmd.arg1L.toNat ∨ s.cmd.arg1L.toNat + 32 ≤ x → Memory.get m x = s.mem.get x)

/-- R148: SEAL of at least 32 bytes stores the 4 checksum bytes at `arg0_l + 28`, returns the checksum, and changes no
other byte of memory and no other register. Of fewer than 32 bytes it fails with PRECONDITION. -/
def Obligations.SealStoresTheChecksum : Prop :=
  (∀ s : State, s.cmd.arg1L.toNat < 32 → exec .sealSegment s = .next (fail .precondition 0 s)) ∧
  (∀ s : State, Memory.wf s.mem = true → 32 ≤ s.cmd.arg1L.toNat →
    Lends s .read s.cmd.arg0L.toNat s.cmd.arg1L.toNat → Lends s .write (s.cmd.arg0L.toNat + 28) 4 →
    let a := s.cmd.arg0L.toNat
    let c := s.cfg.checksum.eval (csumInput (s.mem.readBytes a s.cmd.arg1L.toNat))
    ∃ m, exec .sealSegment s = .next
        { s with
          mem := m
          result := c
          status := { s.status with done := true, err := false, errCode := .none, phase := .idle } } ∧
      (∀ i, i < 4 → Memory.get m (a + 28 + i) = byteAt (be32 c) i) ∧
      (∀ x, x < a + 28 ∨ a + 32 ≤ x → Memory.get m x = s.mem.get x))

/-- R149: VERIFY of at least 32 bytes returns 1, or sets CSUM_LOG and fails with CHECKSUM_MISMATCH and RESULT 0;
nothing else changes. Of fewer than 32 bytes it fails with PRECONDITION. -/
def Obligations.VerifyReportsTheChecksum : Prop :=
  (∀ s : State, s.cmd.arg1L.toNat < 32 → exec .verify s = .next (fail .precondition 0 s)) ∧
  (∀ s : State, 32 ≤ s.cmd.arg1L.toNat → Lends s .read s.cmd.arg0L.toNat s.cmd.arg1L.toNat →
    let b := s.mem.readBytes s.cmd.arg0L.toNat s.cmd.arg1L.toNat
    (csumOf b = s.cfg.checksum.eval (csumInput b) →
      exec .verify s = .next
        { s with
          result := 1
          status := { s.status with done := true, err := false, errCode := .none, phase := .idle } }) ∧
    (csumOf b ≠ s.cfg.checksum.eval (csumInput b) →
      exec .verify s = .next
        { s with
          result := 0
          status :=
            { s.status with
              done := true, err := true, errCode := .checksumMismatch, phase := .idle, csumLog := true } }))

/-- R150: CLASSIFY returns the class code of the datagram at `arg0_l` of length `arg1_l`; it reads memory only when the
length is 32, and nothing else changes. -/
def Obligations.ClassifyReportsTheClass : Prop :=
  ∀ s : State,
    let done := fun (r : Word) =>
      ({ s with
          result := r
          status := { s.status with done := true, err := false, errCode := .none, phase := .idle } } : State)
    let c := rdBe16 (s.mem.readBytes (s.cmd.arg0L.toNat + 8) 2) 0
    (s.cmd.arg1L = 4#32 → exec .classify s = .next (done 0)) ∧
    (s.cmd.arg1L ≠ 4#32 → s.cmd.arg1L ≠ 32#32 → exec .classify s = .next (done 6)) ∧
    (s.cmd.arg1L = 32#32 → Lends s .read (s.cmd.arg0L.toNat + 8) 2 →
      (c &&& 0x4800#16 = 0x4800#16 → exec .classify s = .next (done 1)) ∧
      (c = 0x0800#16 → exec .classify s = .next (done 2)) ∧
      (c = 0x2000#16 → exec .classify s = .next (done 3)) ∧
      (c = 0x2800#16 → exec .classify s = .next (done 4)) ∧
      (c &&& 0x4800#16 ≠ 0x4800#16 → c ≠ 0x0800#16 → c ≠ 0x2000#16 → c ≠ 0x2800#16 →
        exec .classify s = .next (done 5)))

/-! ### Commands that start a wait -/

/-- R161: CONNECT in Invalid transmits the SYN to the given handle and waits for the SYN|ACK; CONN_STATE stays
Invalid and nothing else changes. Outside Invalid it fails with PRECONDITION. -/
def Obligations.ConnectTransmitsTheSyn : Prop :=
  ∀ s : State,
    (s.status.connState = .invalid → exec .connect s = .next
      { s with
        status := { s.status with role := .client, phase := .connWaitSynack }
        conn := { s.conn with peerAddr := s.cmd.arg1L, seq := s.cmd.arg0L, ack := 0 }
        tx := s.tx ++ [controlTo s.cfg s.cmd.arg1L s.cmd.arg0L 0 0x2000#16 s.conn.currWindow] }) ∧
    (s.status.connState ≠ .invalid → exec .connect s = .next (fail .precondition 0 s))

/-- R164: ACCEPT in Listen takes the ISN and waits for a SYN; nothing is transmitted and nothing else changes. Outside
Listen it fails with PRECONDITION. -/
def Obligations.AcceptWaitsForASyn : Prop :=
  ∀ s : State,
    (s.status.connState = .listen → exec .accept s = .next
      { s with status := { s.status with phase := .accWaitSyn }, conn := { s.conn with seq := s.cmd.arg0L } }) ∧
    (s.status.connState ≠ .listen → exec .accept s = .next (fail .precondition 0 s))

/-- R170, R175: SHUTDOWN in Established transmits FIN|ACK and waits for its ACK, or, when the peer's FIN has been
seen, transmits the reply sequence and waits for the final ACK; nothing else changes. Outside Established it fails with
PRECONDITION. -/
def Obligations.ShutdownTransmitsTheFin : Prop :=
  ∀ s : State,
    (s.status.connState ≠ .established → exec .shutdown s = .next (fail .precondition 0 s)) ∧
    (s.status.connState = .established → s.status.finSeen = false → exec .shutdown s = .next
      { s with
        status := { s.status with connState := .closingByPeer, phase := .shdWaitAck }
        conn := { s.conn with seq := s.conn.seq + 1 }
        tx := s.tx ++ [controlTo s.cfg s.conn.peerAddr s.conn.seq s.conn.ack 0x4800#16 s.conn.currWindow] }) ∧
    (s.status.connState = .established → s.status.finSeen = true → exec .shutdown s = .next
      { s with
        status := { s.status with connState := .closingByPeer, phase := .waitFinalAck }
        conn := { s.conn with ack := s.conn.peerFinSeq + 1, seq := s.conn.seq + 1 }
        cmd := { s.cmd with finalResult := 0 }
        tx := s.tx ++
          [controlTo s.cfg s.conn.peerAddr s.conn.seq (s.conn.peerFinSeq + 1) 0x0800#16 s.conn.currWindow,
           controlTo s.cfg s.conn.peerAddr (s.conn.seq + 1) (s.conn.peerFinSeq + 1) 0x4800#16
             s.conn.currWindow] })

/-- R240: RECV in Established takes its buffer, clears the progress of the last RECV, opens the window to the free
space capped by INIT_WINDOW, and waits; nothing is transmitted and nothing else changes. Outside Established it fails
with PRECONDITION. -/
def Obligations.RecvOpensTheWindow : Prop :=
  (∀ s : State, s.status.connState ≠ .established → exec .recv s = .next (fail .precondition 0 s)) ∧
  (∀ s : State, s.status.connState = .established →
    ∃ win : Half, win.toNat = min s.cfg.initWindow.toNat s.cmd.arg1L.toNat ∧
      exec .recv s = .next
        { s with
          rcv := { dst := s.cmd.arg0L, max := s.cmd.arg1L }
          prog := { s.prog with rxWritten := 0, rxTotal := 0, rxExpectedSegs := 0 }
          consecTo := 0
          conn := { s.conn with currWindow := win }
          status := { s.status with rxTotalValid := false, phase := .rcvWait } })

/-- R201 to R206: SEND of a positive length transmits the length prefix and then the first round: `R = min(flow window,
CWND, L)` bytes in chunks of MSS, read from host memory at `arg0_l`; then it waits. R201, R202, R223: SEND of length 0
transmits the prefix of 0 and completes at once with RESULT 0. Nothing else changes. -/
def Obligations.SendTransmitsPrefixAndFirstRound : Prop :=
  (∀ s : State, s.cfg.wf = true → s.status.connState = .established → 1 ≤ s.conn.cwnd.toNat →
    let len := s.cmd.arg1L.toNat
    let r := min (if s.conn.peerWindow = 0 then 1 else s.conn.peerWindow.toNat) (min s.conn.cwnd.toNat len)
    let n := (r + s.cfg.mss.toNat - 1) / s.cfg.mss.toNat
    0 < len → Lends s .read s.cmd.arg0L.toNat r →
    exec .send s = .next
      { s with
        snd :=
          { src := s.cmd.arg0L, len := s.cmd.arg1L, base := s.conn.seq, maxOff := BitVec.ofNat 32 r,
            roundSeq := s.conn.seq, roundLen := BitVec.ofNat 32 r, roundN := BitVec.ofNat 32 n, waitK := 0,
            roundDup := 0, recAck := 0, recValid := false, caGrown := false }
        prog := { s.prog with roundStart := 0, txDelivered := 0 }
        consecTo := 0
        status := { s.status with phase := .sndWaitAck }
        tx := s.tx ++ ⟨s.conn.peerAddr, be32 s.cmd.arg1L⟩ ::
          (List.range n).map (fun i => chunkTo { s with snd.src := s.cmd.arg0L } s.conn.seq 0 r i) }) ∧
  (∀ s : State, s.status.connState = .established → s.cmd.arg1L = 0#32 →
    exec .send s = .next
      { s with
        snd := { s.snd with src := s.cmd.arg0L, len := 0, base := s.conn.seq, maxOff := 0 }
        prog := { s.prog with roundStart := 0, txDelivered := 0 }
        consecTo := 0
        result := 0
        status := { s.status with done := true, err := false, errCode := .none, phase := .idle }
        tx := s.tx ++ [⟨s.conn.peerAddr, [0x00#8, 0x00#8, 0x00#8, 0x00#8]⟩] })

/-! ### Frames -/

/-- R69, R71 and the "Registers written" of R124, R147 to R150, R160, R161, R164, R170, R200, R240: what each command
leaves unchanged when its issue gives a next state. Only BUILD_HEADER and SEAL store bytes; the codec commands, LISTEN,
ACCEPT and RECV transmit nothing; the codec commands touch no connection field. -/
def Obligations.CommandFrames : Prop :=
  ∀ (s t : State) (i : Instr), exec i s = .next t →
    t.cfg = s.cfg ∧ t.arg0 = s.arg0 ∧ t.arg1 = s.arg1 ∧ t.irqEn = s.irqEn ∧ t.cmd.op = s.cmd.op ∧
    t.lent = s.lent ∧ t.inputs = s.inputs ∧ t.readData = s.readData ∧ t.recvBuffer = s.recvBuffer ∧
    (i ≠ .buildHeader → i ≠ .sealSegment → ∀ x, t.mem.get x = s.mem.get x) ∧
    (i ≠ .openConn → t.count = s.count ∧ t.status.cmdOverrun = s.status.cmdOverrun ∧
      t.status.protoLog = s.status.protoLog ∧ t.status.finSeen = s.status.finSeen ∧
      t.status.rxbufValid = s.status.rxbufValid ∧ t.conn.cwnd = s.conn.cwnd ∧ t.conn.ssthresh = s.conn.ssthresh ∧
      t.conn.peerWindow = s.conn.peerWindow ∧ t.conn.peerFinSeq = s.conn.peerFinSeq) ∧
    (i ≠ .openConn → i ≠ .send → t.snd = s.snd) ∧ (i ≠ .openConn → i ≠ .recv → t.rcv = s.rcv) ∧
    (i = .buildHeader ∨ i = .sealSegment ∨ i = .verify ∨ i = .classify →
      t.conn = s.conn ∧ t.prog = s.prog ∧ t.cmd = s.cmd ∧ t.consecTo = s.consecTo ∧ t.tx = s.tx ∧
      t.status.connState = s.status.connState ∧ t.status.role = s.status.role) ∧
    (i = .openConn ∨ i = .listen ∨ i = .accept ∨ i = .recv → t.tx = s.tx) ∧
    (i = .listen → t.conn = s.conn ∧ t.prog = s.prog)

/-- R62, R133, I10: an access of the engine that the host has not lent has no transition: the step ends in the stuck
fault (log entry 7), with none of its effects. -/
def Obligations.UnlentAccessHasNoTransition : Prop :=
  ∀ s : State,
    (¬ Lends s .write s.cmd.arg1L.toNat 32 →
      exec .buildHeader s = .fault (.memNotAdmitted .write s.cmd.arg1L.toNat 32)) ∧
    (32 ≤ s.cmd.arg1L.toNat → ¬ Lends s .read s.cmd.arg0L.toNat s.cmd.arg1L.toNat →
      exec .sealSegment s = .fault (.memNotAdmitted .read s.cmd.arg0L.toNat s.cmd.arg1L.toNat) ∧
      exec .verify s = .fault (.memNotAdmitted .read s.cmd.arg0L.toNat s.cmd.arg1L.toNat)) ∧
    (32 ≤ s.cmd.arg1L.toNat → Lends s .read s.cmd.arg0L.toNat s.cmd.arg1L.toNat →
      ¬ Lends s .write (s.cmd.arg0L.toNat + 28) 4 →
      exec .sealSegment s = .fault (.memNotAdmitted .write (s.cmd.arg0L.toNat + 28) 4)) ∧
    (s.cmd.arg1L = 32#32 → ¬ Lends s .read (s.cmd.arg0L.toNat + 8) 2 →
      exec .classify s = .fault (.memNotAdmitted .read (s.cmd.arg0L.toNat + 8) 2)) ∧
    (s.cfg.wf = true → s.status.connState = .established → 1 ≤ s.conn.cwnd.toNat → s.cmd.arg1L ≠ 0#32 →
      ¬ Lends s .read s.cmd.arg0L.toNat
        (min (if s.conn.peerWindow = 0 then 1 else s.conn.peerWindow.toNat) (min s.conn.cwnd.toNat s.cmd.arg1L.toNat)) →
      ∃ a n, exec .send s = .fault (.memNotAdmitted .read a n))

/-! ### Handshake and teardown events -/

/-- R162, R165, R167, R169: the awaited SYN|ACK with the right ack establishes the client and is answered with an ACK; the
awaited SYN binds the peer and is answered with SYN|ACK; the awaited ACK with the right values establishes the server, with
the bound peer in RESULT. A wrong value fails the command with SEQUENCE_MISMATCH. A failed checksum only sets CSUM_LOG and
keeps the window. Nothing else changes. -/
def Obligations.HandshakeSegmentsEstablish : Prop :=
  ∀ (s : State) (b : List Byte) (src : Word), s.cfg.wf = true →
    let v := verifyWith s.cfg.checksum.eval b
    let log := if v then s.status.csumLog else true
    let win := if v then winOf b else s.conn.peerWindow
    let up : Status :=
      { s.status with
        done := true, err := false, errCode := .none, phase := .idle, connState := .established, rxbufValid := true,
        csumLog := log }
    (s.status.phase = .connWaitSynack → classify b = .synack → ackOf b = s.conn.seq + 1 →
      rxEvent (.datagram b src) s = .next
        { s with
          recvBuffer := b
          conn := { s.conn with ack := seqOf b + 1, seq := s.conn.seq + 1, peerWindow := win }
          tx := s.tx ++
            [controlTo s.cfg s.conn.peerAddr (s.conn.seq + 1) (seqOf b + 1) 0x0800#16 s.conn.currWindow]
          result := 0
          status := up }) ∧
    (s.status.phase = .connWaitSynack → classify b = .synack → ackOf b ≠ s.conn.seq + 1 →
      rxEvent (.datagram b src) s = .next (mismatch 0 b s)) ∧
    (s.status.phase = .accWaitSyn → classify b = .syn →
      rxEvent (.datagram b src) s = .next
        { s with
          recvBuffer := b
          conn := { s.conn with peerAddr := src, ack := seqOf b + 1, peerWindow := win }
          tx := s.tx ++ [controlTo s.cfg src s.conn.seq (seqOf b + 1) 0x2800#16 s.conn.currWindow]
          status := { s.status with phase := .accWaitAck, csumLog := log } }) ∧
    (s.status.phase = .accWaitAck → classify b = .ack → ackOf b = s.conn.seq + 1 → seqOf b = s.conn.ack →
      rxEvent (.datagram b src) s = .next
        { s with
          recvBuffer := b
          conn := { s.conn with seq := s.conn.seq + 1, peerWindow := win }
          result := s.conn.peerAddr
          status := up }) ∧
    (s.status.phase = .accWaitAck → classify b = .ack → ackOf b ≠ s.conn.seq + 1 ∨ seqOf b ≠ s.conn.ack →
      rxEvent (.datagram b src) s = .next (mismatch 0 b s))

/-- R163, R166, R168, R172, R174, R177: in each handshake and teardown wait, a datagram of another class fails the
command with PROTOCOL_VIOLATION and a TimedOut fails it with TIMEOUT, but for ACC_WAIT_SYN, which ignores TimedOut;
RESULT is 0, or final_result in WAIT_FINAL_ACK. Nothing else changes. -/
def Obligations.OtherEventsFailTheHandshakeAndTeardown : Prop :=
  ∀ (s : State) (b : List Byte) (src : Word) (c : DgramClass), b.length ≤ s.cfg.maxDgram.toNat →
    awaited s.status.phase = some c →
    let r := if s.status.phase = .waitFinalAck then s.cmd.finalResult else 0
    (classify b ≠ c → rxEvent (.datagram b src) s = .next
      (fail .protocolViolation r { s with recvBuffer := b.take (32 + s.cfg.mss.toNat) })) ∧
    (s.status.phase ≠ .accWaitSyn → rxEvent .timedOut s = .next (fail .timeout r s)) ∧
    (s.status.phase = .accWaitSyn → rxEvent .timedOut s = .next s)

/-- R171, R173, R176, R169: the awaited segments of a teardown: the ACK of the FIN, the peer's FIN|ACK, answered with an
ACK and closing, and the final ACK of the reply sequence, closing. A wrong value in an ACK fails the command with
SEQUENCE_MISMATCH. Nothing else changes. -/
def Obligations.TeardownSegmentsAdvanceToClosed : Prop :=
  ∀ (s : State) (b : List Byte) (src : Word), s.cfg.wf = true →
    let log := if verifyWith s.cfg.checksum.eval b then s.status.csumLog else true
    (s.status.phase = .shdWaitAck → classify b = .ack → ackOf b = s.conn.seq → seqOf b = s.conn.ack →
      rxEvent (.datagram b src) s = .next
        { s with recvBuffer := b, status := { s.status with phase := .shdWaitFin, csumLog := log } }) ∧
    (s.status.phase = .shdWaitAck → classify b = .ack → ackOf b ≠ s.conn.seq ∨ seqOf b ≠ s.conn.ack →
      rxEvent (.datagram b src) s = .next (mismatch 0 b s)) ∧
    (s.status.phase = .waitFinalAck → classify b = .ack → ackOf b ≠ s.conn.seq + 1 ∨ seqOf b ≠ s.conn.ack →
      rxEvent (.datagram b src) s = .next (mismatch s.cmd.finalResult b s)) ∧
    (s.status.phase = .shdWaitFin → classify b = .finack →
      rxEvent (.datagram b src) s = .next
        { s with
          recvBuffer := b
          conn := { s.conn with ack := seqOf b + 1 }
          tx := s.tx ++ [controlTo s.cfg s.conn.peerAddr s.conn.seq (seqOf b + 1) 0x0800#16 s.conn.currWindow]
          result := 0
          status :=
            { s.status with
              done := true, err := false, errCode := .none, phase := .idle, connState := .closed,
              rxbufValid := false, csumLog := log } }) ∧
    (s.status.phase = .waitFinalAck → classify b = .ack → ackOf b = s.conn.seq + 1 → seqOf b = s.conn.ack →
      rxEvent (.datagram b src) s = .next
        { s with
          recvBuffer := b
          conn := { s.conn with seq := s.conn.seq + 1 }
          result := s.cmd.finalResult
          status :=
            { s.status with
              done := true, err := false, errCode := .none, phase := .idle, connState := .closed,
              rxbufValid := false, csumLog := log } })

/-! ### Send-engine events -/

/-- R202 to R206, R223: a round start completes the SEND when every byte is confirmed; otherwise it transmits exactly
the chunks of the next round, from the first unconfirmed byte, and waits. Nothing else changes. -/
def Obligations.RoundStartCompletesOrTransmits : Prop :=
  ∀ s : State, s.cfg.wf = true → 1 ≤ s.conn.cwnd.toNat →
    let d := (s.conn.seq - s.snd.base).toNat
    d ≤ s.snd.len.toNat → s.snd.maxOff.toNat ≤ s.snd.len.toNat →
    let r := min (if s.conn.peerWindow = 0 then 1 else s.conn.peerWindow.toNat)
      (min s.conn.cwnd.toNat (s.snd.len.toNat - d))
    let n := (r + s.cfg.mss.toNat - 1) / s.cfg.mss.toNat
    (d = s.snd.len.toNat → startRound s = .next (complete s.snd.len { s with prog.txDelivered := s.snd.len })) ∧
    (d < s.snd.len.toNat → Lends s .read (s.snd.src.toNat + d) r →
      startRound s = .next
        { s with
          prog := { s.prog with txDelivered := BitVec.ofNat 32 d, roundStart := BitVec.ofNat 32 d }
          snd :=
            { s.snd with
              roundSeq := s.conn.seq, roundLen := BitVec.ofNat 32 r, roundN := BitVec.ofNat 32 n,
              maxOff := BitVec.ofNat 32 (max s.snd.maxOff.toNat (d + r)), waitK := 0, roundDup := 0, recAck := 0,
              recValid := false, caGrown := false }
          status := { s.status with phase := .sndWaitAck }
          tx := s.tx ++ (List.range n).map (fun i => chunkTo s s.conn.seq d r i) } ∧
      1 ≤ n ∧ r ≤ 65535)

/-- R209, R210, R211: a TimedOut collapses SSTHRESH and CWND and counts; at the retry bound SEND fails with TIMEOUT and
the bytes confirmed, below it a new round starts at the first unconfirmed byte. -/
def Obligations.SendTimeoutCollapsesTheWindow : Prop :=
  ∀ s : State, s.status.phase = .sndWaitAck →
    let th := max 1 (s.conn.cwnd.toNat / 2)
    let cnt := min (s.consecTo.toNat + 1) 4294967295
    let s1 : State :=
      { s with
        count := { s.count with timeout := s.count.timeout + 1 }
        consecTo := BitVec.ofNat 32 cnt
        conn := { s.conn with ssthresh := BitVec.ofNat 32 th, cwnd := BitVec.ofNat 32 (min s.cfg.mss.toNat th) } }
    let d := s.conn.seq - s.snd.base
    (s.cfg.maxRetries ≠ 0 → s.cfg.maxRetries.toNat ≤ cnt →
      rxEvent .timedOut s = .next (fail .timeout d { s1 with prog := { s.prog with txDelivered := d } })) ∧
    (s.cfg.maxRetries = 0 ∨ cnt < s.cfg.maxRetries.toNat → rxEvent .timedOut s = startRound s1)

/-- R208, R212: in SND_WAIT_ACK a datagram that is no ACK sets PROTO_LOG, resets the consecutive-timeout count, and
changes nothing else. -/
def Obligations.SendIgnoresOtherClasses : Prop :=
  ∀ (s : State) (b : List Byte) (src : Word), s.status.phase = .sndWaitAck → b.length ≤ s.cfg.maxDgram.toNat →
    classify b ≠ .ack →
    rxEvent (.datagram b src) s = .next
      { s with
        recvBuffer := b.take (32 + s.cfg.mss.toNat)
        consecTo := 0
        status := { s.status with protoLog := true } }

/-- R208, R214 to R217: the verified in-order ack of chunk `wait_k` takes the peer's window, confirms the chunk and
grows CWND by MSS: at every such ack in slow start, once per round in congestion avoidance. Then R219. -/
def Obligations.InOrderAckConfirmsAndGrows : Prop :=
  ∀ (s : State) (b : List Byte) (src : Word), s.cfg.wf = true → s.status.phase = .sndWaitAck →
    classify b = .ack → verifyWith s.cfg.checksum.eval b = true →
    let endK := s.snd.roundSeq +
      BitVec.ofNat 32 (min ((s.snd.waitK.toNat + 1) * s.cfg.mss.toNat) s.snd.roundLen.toNat)
    ackOf b = endK →
    let slow := decide (s.conn.cwnd.toNat < s.conn.ssthresh.toNat)
    let grown := BitVec.ofNat 32 (min (s.conn.cwnd.toNat + s.cfg.mss.toNat) 4294967295)
    rxEvent (.datagram b src) s = advance
      { s with
        recvBuffer := b
        consecTo := 0
        conn :=
          { s.conn with
            peerWindow := winOf b
            seq := endK
            cwnd := if slow || !s.snd.caGrown then grown else s.conn.cwnd }
        snd := { s.snd with caGrown := if slow then s.snd.caGrown else true } }

/-- R208, R213, R214, R218: an ACK that fails verify, or has another ack value, counts as a duplicate of the round;
only a verified one gives its window, and its ack is recorded when it is the highest in range. CWND and SSTHRESH do not
change. Then R219. -/
def Obligations.OutOfOrderAckCountsAsDuplicate : Prop :=
  ∀ (s : State) (b : List Byte) (src : Word), s.cfg.wf = true → s.status.phase = .sndWaitAck →
    classify b = .ack →
    let offs := fun (x : Word) => (x - s.snd.base).toNat
    let endK := s.snd.roundSeq +
      BitVec.ofNat 32 (min ((s.snd.waitK.toNat + 1) * s.cfg.mss.toNat) s.snd.roundLen.toNat)
    let dup : State :=
      { s with
        recvBuffer := b
        consecTo := 0
        count := { s.count with txDup := s.count.txDup + 1 }
        snd := { s.snd with roundDup := s.snd.roundDup + 1 } }
    let inRange := offs s.conn.seq < offs (ackOf b) ∧ offs (ackOf b) ≤ s.snd.maxOff.toNat ∧
      (s.snd.recValid = false ∨ offs s.snd.recAck < offs (ackOf b))
    (verifyWith s.cfg.checksum.eval b = false →
      rxEvent (.datagram b src) s = advance { dup with status := { s.status with csumLog := true } }) ∧
    (verifyWith s.cfg.checksum.eval b = true → ackOf b ≠ endK → inRange →
      rxEvent (.datagram b src) s = advance
        { dup with
          conn := { s.conn with peerWindow := winOf b }
          snd := { s.snd with roundDup := s.snd.roundDup + 1, recAck := ackOf b, recValid := true } }) ∧
    (verifyWith s.cfg.checksum.eval b = true → ackOf b ≠ endK → ¬ inRange →
      rxEvent (.datagram b src) s = advance { dup with conn := { s.conn with peerWindow := winOf b } })

/-- R219 to R222: after an ACK the wait moves to the next chunk; after the last chunk's the round ends: one halving if it
saw duplicates, confirmation up to the recorded ack if that is ahead, and the next round start. -/
def Obligations.AdvanceWaitsOrEndsTheRound : Prop :=
  ∀ s : State,
    let half := s.conn.cwnd.toNat / 2
    let s1 : State := { s with snd := { s.snd with waitK := s.snd.waitK + 1 } }
    (s.snd.waitK + 1 ≠ s.snd.roundN → advance s = .next s1) ∧
    (s.snd.waitK + 1 = s.snd.roundN →
      let seq := if s.snd.recValid ∧ (s.conn.seq - s.snd.base).toNat < (s.snd.recAck - s.snd.base).toNat
        then s.snd.recAck else s.conn.seq
      (s.snd.roundDup = 0 → advance s = startRound { s1 with conn := { s.conn with seq := seq } }) ∧
      (s.snd.roundDup ≠ 0 → advance s = startRound
        { s1 with
          count := { s.count with halve := s.count.halve + 1 }
          conn :=
            { s.conn with
              seq := seq
              ssthresh := BitVec.ofNat 32 (max 1 half)
              cwnd := BitVec.ofNat 32 (half + 1) } }))

/-! ### Receive-engine events -/

/-- R241, R243: a length prefix gives the total once; it fails RECV when it exceeds the buffer or what was written,
completes it when all is written, and is logged and ignored when the total is known. -/
def Obligations.PrefixAnnouncesTheTotal : Prop :=
  ∀ (s : State) (b : List Byte) (src : Word), s.cfg.wf = true → s.status.phase = .rcvWait → b.length = 4 →
    let t := rdBe32 b 0
    let w := s.prog.rxWritten
    let s0 : State := { s with recvBuffer := b, consecTo := 0 }
    let s1 : State :=
      { s0 with
        prog :=
          { s.prog with
            rxTotal := t
            rxExpectedSegs := BitVec.ofNat 32 ((t.toNat + s.cfg.mss.toNat - 1) / s.cfg.mss.toNat) }
        status := { s.status with rxTotalValid := true } }
    (s.status.rxTotalValid = true → rxEvent (.datagram b src) s = .next (logProto s0)) ∧
    (s.status.rxTotalValid = false →
      (s.rcv.max.toNat < t.toNat → rxEvent (.datagram b src) s = .next (fail .bufferTooSmall w s1)) ∧
      (t.toNat ≤ s.rcv.max.toNat → t.toNat < w.toNat →
        rxEvent (.datagram b src) s = .next (fail .protocolViolation w s1)) ∧
      (t.toNat ≤ s.rcv.max.toNat → w = t → rxEvent (.datagram b src) s = .next (complete w s1)) ∧
      (t.toNat ≤ s.rcv.max.toNat → w.toNat < t.toNat → rxEvent (.datagram b src) s = .next s1))

/-- R241, R244, R175: a FIN|ACK ends the data phase of RECV: a server transmits the reply sequence and waits for the
final ACK, a client records the peer's closing sequence number and completes with the bytes written. -/
def Obligations.FinAckEndsRecvByRole : Prop :=
  ∀ (s : State) (b : List Byte) (src : Word), s.cfg.wf = true → s.status.phase = .rcvWait → classify b = .finack →
    let log := if verifyWith s.cfg.checksum.eval b then s.status.csumLog else true
    let q := seqOf b + 1
    (s.status.role = .server → rxEvent (.datagram b src) s = .next
      { s with
        recvBuffer := b
        consecTo := 0
        cmd := { s.cmd with finalResult := s.prog.rxWritten }
        conn := { s.conn with ack := q, seq := s.conn.seq + 1 }
        status := { s.status with connState := .closingByPeer, phase := .waitFinalAck, csumLog := log }
        tx := s.tx ++
          [controlTo s.cfg s.conn.peerAddr s.conn.seq q 0x0800#16 s.conn.currWindow,
           controlTo s.cfg s.conn.peerAddr (s.conn.seq + 1) q 0x4800#16 s.conn.currWindow] }) ∧
    (s.status.role = .client → rxEvent (.datagram b src) s = .next
      (complete s.prog.rxWritten
        { s with
          recvBuffer := b
          consecTo := 0
          conn := { s.conn with peerFinSeq := seqOf b }
          status := { s.status with finSeen := true, csumLog := log } }))

/-- R241, R245, R246: an ACK in RECV is validated, logged on a mismatch and consumed; a SYN, SYN|ACK or any other control
segment is logged and dropped. Nothing is transmitted and nothing else changes. -/
def Obligations.RecvConsumesControlSegments : Prop :=
  ∀ (s : State) (b : List Byte) (src : Word), s.cfg.wf = true → s.status.phase = .rcvWait →
    let s0 : State := { s with recvBuffer := b, consecTo := 0 }
    let log := if verifyWith s.cfg.checksum.eval b then s.status.csumLog else true
    (classify b = .ack → seqOf b = s.conn.ack → ackOf b = s.conn.seq →
      rxEvent (.datagram b src) s = .next { s0 with status := { s.status with csumLog := log } }) ∧
    (classify b = .ack → seqOf b ≠ s.conn.ack ∨ ackOf b ≠ s.conn.seq →
      rxEvent (.datagram b src) s = .next { s0 with status := { s.status with csumLog := log, protoLog := true } }) ∧
    (classify b = .syn ∨ classify b = .synack ∨ classify b = .ctrlOther →
      rxEvent (.datagram b src) s = .next { s0 with status := { s.status with protoLog := true } })

/-- R247, R248: a data segment that passes the acceptance test is copied to `rcv_dst + RX_WRITTEN`, advances RX_WRITTEN and
ACK_NUMBER by its length and the window to the free space, is acknowledged cumulatively, and completes RECV when the
announced total is written. No other byte of memory and no other register changes. -/
def Obligations.InOrderDataIsWrittenAndAcknowledged : Prop :=
  ∀ (s : State) (b : List Byte) (src : Word), s.cfg.wf = true → Memory.wf s.mem = true →
    s.status.phase = .rcvWait → 33 ≤ b.length → b.length ≤ 32 + s.cfg.mss.toNat →
    verifyWith s.cfg.checksum.eval b = true → seqOf b = s.conn.ack →
    let n := b.length - 32
    let w := s.prog.rxWritten.toNat + n
    w ≤ s.rcv.max.toNat → (s.status.rxTotalValid = true → w ≤ s.prog.rxTotal.toNat) →
    let dst := s.rcv.dst.toNat + s.prog.rxWritten.toNat
    Lends s .write dst n →
    ∃ (m : Memory) (win : Half),
      (∀ i, i < n → m.get (dst + i) = byteAt b (32 + i)) ∧
      (∀ x, x < dst ∨ dst + n ≤ x → m.get x = s.mem.get x) ∧
      win.toNat = min s.cfg.initWindow.toNat (s.rcv.max.toNat - w) ∧
      let s1 : State :=
        { s with
          recvBuffer := b
          consecTo := 0
          mem := m
          prog := { s.prog with rxWritten := BitVec.ofNat 32 w }
          conn := { s.conn with ack := s.conn.ack + BitVec.ofNat 32 n, currWindow := win }
          tx := s.tx ++
            [controlTo s.cfg s.conn.peerAddr s.conn.seq (s.conn.ack + BitVec.ofNat 32 n) 0x0800#16 win] }
      (s.status.rxTotalValid = true → w = s.prog.rxTotal.toNat →
        rxEvent (.datagram b src) s = .next (complete (BitVec.ofNat 32 w) s1)) ∧
      (s.status.rxTotalValid = false ∨ w < s.prog.rxTotal.toNat → rxEvent (.datagram b src) s = .next s1)

/-- R247, R249: a data datagram that fails a check is answered with the acknowledgement of the current registers and
counted; CSUM_LOG is set when a well-sized one fails verify. No byte of memory and nothing else changes. -/
def Obligations.RejectedDataIsAnsweredWithADuplicateAck : Prop :=
  ∀ (s : State) (b : List Byte) (src : Word), s.status.phase = .rcvWait → b.length ≤ s.cfg.maxDgram.toNat →
    classify b = .data →
    let wellSized := 33 ≤ b.length ∧ b.length ≤ 32 + s.cfg.mss.toNat
    let v := verifyWith s.cfg.checksum.eval b
    let w := s.prog.rxWritten.toNat + (b.length - 32)
    ¬ (wellSized ∧ v = true ∧ seqOf b = s.conn.ack ∧ w ≤ s.rcv.max.toNat ∧
        (s.status.rxTotalValid = false ∨ w ≤ s.prog.rxTotal.toNat)) →
    ∃ log, (wellSized ∧ v = false → log = true) ∧ (¬ (wellSized ∧ v = false) → log = s.status.csumLog) ∧
      rxEvent (.datagram b src) s = .next
        { s with
          recvBuffer := b.take (32 + s.cfg.mss.toNat)
          consecTo := 0
          count := { s.count with rxDup := s.count.rxDup + 1 }
          status := { s.status with csumLog := log }
          tx := s.tx ++ [controlTo s.cfg s.conn.peerAddr s.conn.seq s.conn.ack 0x0800#16 s.conn.currWindow] }

/-- R242: a TimedOut in RCV_WAIT is counted; at the retry bound RECV fails with TIMEOUT and the bytes written, below it
the wait goes on. Nothing is transmitted and nothing else changes. -/
def Obligations.RecvTimeoutCountsThenFails : Prop :=
  ∀ s : State, s.status.phase = .rcvWait →
    let cnt := min (s.consecTo.toNat + 1) 4294967295
    let s1 : State :=
      { s with count := { s.count with timeout := s.count.timeout + 1 }, consecTo := BitVec.ofNat 32 cnt }
    (s.cfg.maxRetries ≠ 0 → s.cfg.maxRetries.toNat ≤ cnt →
      rxEvent .timedOut s = .next (fail .timeout s.prog.rxWritten s1)) ∧
    (s.cfg.maxRetries = 0 ∨ cnt < s.cfg.maxRetries.toNat → rxEvent .timedOut s = .next s1)

/-! ### Rules of the whole machine -/

/-- Reset meets the engine's invariant (R6, R30, R320), the constraints of R5 on the parameters among it. -/
def Obligations.ResetMeetsTheEngineInvariant : Prop :=
  EngineInv State.reset ∧ ∀ p : Params, p.wf = true → EngineInv (State.resetWith p)

/-- R30, R52, R179, R180, R225, R251: every step of every engine keeps the invariant `EngineInv`. -/
def Obligations.EveryStepKeepsTheEngineInvariant : Prop :=
  ∀ s t : State, EngineInv s → step s = .next t → EngineInv t

/-- R98, R152, R270, R271: every datagram a step hands to the Transport is a 4-byte prefix or a sealed segment of at most
`32 + MSS` bytes, goes to PEER_ADDR, and is added after those already handed over. -/
def Obligations.EveryTransmittedDatagramIsSealedAndForThePeer : Prop :=
  ∀ s t : State, EngineInv s → step s = .next t →
    ∃ sent : List Tx, t.tx = s.tx ++ sent ∧
      ∀ d ∈ sent, d.dest = t.conn.peerAddr ∧ goodDatagram s.cfg d.bytes = true

/-- R62, R63, R71: an engine step changes only bytes lent to it for writing. -/
def Obligations.EngineWritesOnlyLentBytes : Prop :=
  ∀ (s t : State) (i : Input) (left : List Input) (x : Nat), Memory.wf s.mem = true →
    takeNext s.status.phase s.inputs = some (i, left) → (∀ a bs, i ≠ .memWrite a bs) →
    step s = .next t → t.mem.get x ≠ s.mem.get x →
    x < 4294967296 ∧ ∃ r ∈ s.lent, r.kind = .write ∧ r.base ≤ x ∧ x < r.base + r.len

/-- R62, R71: an engine step depends only on bytes lent to it for reading: two engines that differ only in other bytes
take the same step, transmit the same datagrams and write the same bytes. -/
def Obligations.EngineReadsOnlyLentBytes : Prop :=
  ∀ (s t : State) (m : Memory),
    Memory.wf s.mem = true → Memory.wf m = true →
    (∀ x, (∃ r ∈ s.lent, r.kind = .read ∧ r.base ≤ x ∧ x < r.base + r.len) → m.get x = s.mem.get x) →
    step s = .next t →
    ∃ m', step { s with mem := m } = .next { t with mem := m' } ∧
      ∀ x, (t.mem.get x = s.mem.get x ∧ m'.get x = m.get x) ∨ t.mem.get x = m'.get x

/-- R36, R130, R306: no step changes a parameter; a step that is neither a CMD write in IDLE, nor an RX event, nor reset
leaves the whole engine but for the operand registers, IRQ_EN and the W1C bits. -/
def Obligations.OnlyEngineEventsChangeTheEngine : Prop :=
  ∀ (s t : State) (i : Input) (left : List Input), takeNext s.status.phase s.inputs = some (i, left) →
    step s = .next t →
    t.cfg = s.cfg ∧
    (i.isRx = false → i ≠ .hwReset → (s.status.phase = .idle → ∀ w, i ≠ .regWrite 0x20 4 w) →
      t.conn = s.conn ∧ t.count = s.count ∧ t.prog = s.prog ∧ t.cmd = s.cmd ∧ t.snd = s.snd ∧ t.rcv = s.rcv ∧
      t.consecTo = s.consecTo ∧ t.tx = s.tx ∧ t.result = s.result ∧ t.recvBuffer = s.recvBuffer ∧
      ∃ d e o c p, t.status =
        { s.status with done := d, err := e, cmdOverrun := o, csumLog := c, protoLog := p })

/-- R294: a step that ends with ERR = 1 leaves CONN_STATE where it was, so a failed command establishes and closes
nothing. -/
def Obligations.FailedCommandLeavesTheConnectionState : Prop :=
  ∀ s t : State, EngineInv s → step s = .next t → t.status.err = true → t.status.connState = s.status.connState

/-- R28, R29: CWND and SSTHRESH are written only by the send engine's events, by OPEN and by reset. -/
def Obligations.OnlyTheSendEngineMovesTheCongestionWindow : Prop :=
  ∀ (s t : State) (i : Input) (left : List Input), takeNext s.status.phase s.inputs = some (i, left) →
    step s = .next t → t.conn.cwnd ≠ s.conn.cwnd ∨ t.conn.ssthresh ≠ s.conn.ssthresh →
    (s.status.phase = .sndWaitAck ∧ i.isRx = true) ∨ i = .hwReset ∨
      (s.status.phase = .idle ∧ ∃ w, i = .regWrite 0x20 4 w ∧ decode w = .ok .openConn)

/-- R225, R206: within a SEND the confirmed offset never decreases and never passes what has been transmitted. -/
def Obligations.ConfirmedOffsetNeverDecreases : Prop :=
  ∀ (s t : State) (e : RxEvent), EngineInv s → s.status.phase = .sndWaitAck → rxEvent e s = .next t →
    t.snd.base = s.snd.base ∧ t.snd.len = s.snd.len ∧
    (s.conn.seq - s.snd.base).toNat ≤ (t.conn.seq - t.snd.base).toNat ∧
    (t.conn.seq - t.snd.base).toNat ≤ s.snd.maxOff.toNat ∧ s.snd.maxOff.toNat ≤ t.snd.maxOff.toNat

/-- R251: while RECV waits, ACK_NUMBER and RX_WRITTEN advance together, inside the buffer, and the only bytes of memory a
step changes are those it appends after the ones already received. -/
def Obligations.RecvAppendsInOrder : Prop :=
  ∀ (s t : State) (e : RxEvent), EngineInv s → s.status.phase = .rcvWait → rxEvent e s = .next t →
    t.status.phase ≠ .waitFinalAck →
    t.conn.ack - t.prog.rxWritten = s.conn.ack - s.prog.rxWritten ∧
    s.prog.rxWritten.toNat ≤ t.prog.rxWritten.toNat ∧ t.prog.rxWritten.toNat ≤ s.rcv.max.toNat ∧ t.rcv = s.rcv ∧
    ∀ x, t.mem.get x ≠ s.mem.get x →
      s.rcv.dst.toNat + s.prog.rxWritten.toNat ≤ x ∧ x < s.rcv.dst.toNat + t.prog.rxWritten.toNat

/-! ### Two engines -/

/-- R181: a client's CONNECT with ISN X against a server's ACCEPT with ISN Y, nothing lost or altered: exactly SYN,
SYN|ACK and ACK are exchanged, the client's sent to the handle CONNECT names and the server's to the source of the SYN,
and both ends are Established with each other's numbers and windows. -/
def Obligations.HandshakeEstablishesBothEnds : Prop :=
  ∀ (a b : State) (ha hb : Word), a.cfg.wf = true → b.cfg.wf = true → a.cfg.checksum = b.cfg.checksum →
    a.status.connState = .invalid → b.status.connState = .listen →
    ∃ a1 b1 b2 a2 b3 syn synack ack,
      exec .connect a = .next a1 ∧ exec .accept b = .next b1 ∧ sentBy a a1 = [⟨a.cmd.arg1L, syn⟩] ∧ sentBy b b1 = [] ∧
      rxEvent (.datagram syn ha) b1 = .next b2 ∧ sentBy b1 b2 = [⟨ha, synack⟩] ∧
      rxEvent (.datagram synack hb) a1 = .next a2 ∧ sentBy a1 a2 = [⟨a.cmd.arg1L, ack⟩] ∧
      rxEvent (.datagram ack ha) b2 = .next b3 ∧ sentBy b2 b3 = [] ∧
      classify syn = .syn ∧ classify synack = .synack ∧ classify ack = .ack ∧
      a2.status.connState = .established ∧ b3.status.connState = .established ∧
      a2.status.phase = .idle ∧ b3.status.phase = .idle ∧ a2.status.err = false ∧ b3.status.err = false ∧
      a2.conn.seq = a.cmd.arg0L + 1 ∧ a2.conn.ack = b.cmd.arg0L + 1 ∧
      b3.conn.seq = b.cmd.arg0L + 1 ∧ b3.conn.ack = a.cmd.arg0L + 1 ∧
      a2.conn.peerWindow = b.conn.currWindow ∧ b3.conn.peerWindow = a.conn.currWindow ∧
      a2.conn.peerAddr = a.cmd.arg1L ∧ b3.conn.peerAddr = ha ∧ b3.result = ha

/-- R178: SHUTDOWN at one end while the other runs RECV as the server, or runs RECV as the client and then SHUTDOWN:
exactly FIN|ACK, ACK, FIN|ACK, ACK are exchanged with the numbers of R178, each sent to the sender's PEER_ADDR, and both
ends reach Closed. -/
def Obligations.TeardownClosesBothEnds : Prop :=
  ∀ (a b : State) (ha hb : Word), a.cfg.wf = true → b.cfg.wf = true → a.cfg.checksum = b.cfg.checksum →
    a.status.connState = .established → a.status.finSeen = false → b.status.connState = .established →
    b.status.phase = .rcvWait → a.conn.ack = b.conn.seq → b.conn.ack = a.conn.seq →
    ∃ a1 a2 a3 b1 b2 fin1 ack1 fin2 ack2,
      exec .shutdown a = .next a1 ∧ sentBy a a1 = [⟨a.conn.peerAddr, fin1⟩] ∧
      (b.status.role = .server → rxEvent (.datagram fin1 ha) b = .next b1 ∧
        sentBy b b1 = [⟨b.conn.peerAddr, ack1⟩, ⟨b.conn.peerAddr, fin2⟩]) ∧
      (b.status.role = .client → ∃ b0, rxEvent (.datagram fin1 ha) b = .next b0 ∧ sentBy b b0 = [] ∧
        b0.status.phase = .idle ∧ b0.status.finSeen = true ∧
        exec .shutdown (latch 0x07#8 b0) = .next b1 ∧
        sentBy b0 b1 = [⟨b.conn.peerAddr, ack1⟩, ⟨b.conn.peerAddr, fin2⟩]) ∧
      rxEvent (.datagram ack1 hb) a1 = .next a2 ∧ sentBy a1 a2 = [] ∧
      rxEvent (.datagram fin2 hb) a2 = .next a3 ∧ sentBy a2 a3 = [⟨a.conn.peerAddr, ack2⟩] ∧
      rxEvent (.datagram ack2 ha) b1 = .next b2 ∧ sentBy b1 b2 = [] ∧
      classify fin1 = .finack ∧ seqOf fin1 = a.conn.seq ∧ ackOf fin1 = b.conn.seq ∧
      classify ack1 = .ack ∧ seqOf ack1 = b.conn.seq ∧ ackOf ack1 = a.conn.seq + 1 ∧
      classify fin2 = .finack ∧ seqOf fin2 = b.conn.seq + 1 ∧ ackOf fin2 = a.conn.seq + 1 ∧
      classify ack2 = .ack ∧ seqOf ack2 = a.conn.seq + 1 ∧ ackOf ack2 = b.conn.seq + 2 ∧
      a3.status.connState = .closed ∧ b2.status.connState = .closed ∧ a3.status.rxbufValid = false ∧
      b2.status.rxbufValid = false ∧ a3.status.err = false ∧ b2.status.err = false ∧
      a3.conn.seq = a.conn.seq + 1 ∧ a3.conn.ack = b.conn.seq + 2 ∧
      b2.conn.seq = b.conn.seq + 2 ∧ b2.conn.ack = a.conn.seq + 1

/-- R226, R277: over a lossless link between two engines whose PEER_ADDR is the other's handle, a SEND of L bytes against
a RECV with `max_length ≥ L` never gets stuck and never times out: every run of deliveries is at most `2 L + 1` long, and
when no delivery is possible any more both commands have completed with RESULT = L, no datagram is in flight, no
duplicate, timeout or halving has been counted, and the receiver's buffer holds exactly the L payload bytes in order,
every other byte of its memory being as before. -/
def Obligations.LosslessTransferDeliversThePayload : Prop :=
  ∀ (a b a1 b1 : State) (ha hb : Word), EngineInv a → EngineInv b → a.cfg.checksum = b.cfg.checksum →
    a.cfg.mss = b.cfg.mss → a.conn.peerAddr = hb → b.conn.peerAddr = ha → a.conn.seq = b.conn.ack →
    a.cmd.op = 0x05#8 → b.cmd.op = 0x06#8 →
    a.status.phase = .idle → b.status.phase = .idle →
    a.status.connState = .established → b.status.connState = .established →
    a.cmd.arg1L.toNat ≤ b.cmd.arg1L.toNat →
    Lends a .read a.cmd.arg0L.toNat a.cmd.arg1L.toNat → Lends b .write b.cmd.arg0L.toNat a.cmd.arg1L.toNat →
    exec .send a = .next a1 → exec .recv b = .next b1 →
    ∀ (n : Nat) (r : Link), Link.Runs n ⟨a1, b1, sentTo hb a a1, [], ha, hb⟩ r →
      n ≤ 2 * a.cmd.arg1L.toNat + 1 ∧
      ((∀ m, ¬ Link.Delivers r m) →
        r.ab = [] ∧ r.ba = [] ∧
        r.a.status.phase = .idle ∧ r.a.status.done = true ∧ r.a.status.err = false ∧ r.a.result = a.cmd.arg1L ∧
        r.b.status.phase = .idle ∧ r.b.status.done = true ∧ r.b.status.err = false ∧ r.b.result = a.cmd.arg1L ∧
        r.a.count = a.count ∧ r.b.count = b.count ∧
        r.a.conn.seq = a.conn.seq + a.cmd.arg1L ∧ r.b.conn.ack = a.conn.seq + a.cmd.arg1L ∧
        (∀ i, i < a.cmd.arg1L.toNat →
          r.b.mem.get (b.cmd.arg0L.toNat + i) = a.mem.get (a.cmd.arg0L.toNat + i)) ∧
        (∀ x, x < b.cmd.arg0L.toNat ∨ b.cmd.arg0L.toNat + a.cmd.arg1L.toNat ≤ x → r.b.mem.get x = b.mem.get x))
end

