-- ==== Sys2Proof/Laws/Arith.lean ====
section
/-! SUPPORT. The arithmetic of chunks, windows and parameters. -/

namespace Sys2Proof

/-- What `Params.wf` says, as inequalities (R5). -/
theorem Params.wf_bounds {p : Params} (h : p.wf = true) :
    1 ≤ p.mss.toNat ∧ p.mss.toNat ≤ 65535 ∧ 1 ≤ p.initWindow.toNat ∧ 1 ≤ p.initCwnd.toNat ∧
      1 ≤ p.initSsthresh.toNat ∧ 32 + p.mss.toNat ≤ p.maxDgram.toNat := by
  simp only [Params.wf, Bool.and_eq_true, decide_eq_true_eq] at h
  omega

namespace Machine

/-- `ceil(r / m)` chunks of `m` bytes reach past every chunk before the last. -/
theorem mul_lt_of_lt_ceilDiv {r m j : Nat} (hm : 1 ≤ m) (h : j < ceilDiv r m) : j * m < r := by
  have h1 : (j + 1) * m ≤ r + m - 1 := by
    rw [← Nat.le_div_iff_mul_le (by omega)]
    exact h
  rw [Nat.add_mul] at h1
  omega

/-- `ceil(r / m)` chunks of `m` bytes hold `r` bytes. -/
theorem le_ceilDiv_mul (r m : Nat) (hm : 1 ≤ m) : r ≤ ceilDiv r m * m := by
  have h1 : r + m - 1 < (ceilDiv r m + 1) * m := by
    rw [← Nat.div_lt_iff_lt_mul (by omega)]
    exact Nat.lt_succ_self _
  rw [Nat.add_mul] at h1
  omega

theorem ceilDiv_zero {m : Nat} (hm : 1 ≤ m) : ceilDiv 0 m = 0 := Nat.div_eq_of_lt (by omega)

theorem ceilDiv_pos {r m : Nat} (hm : 1 ≤ m) (hr : 1 ≤ r) : 1 ≤ ceilDiv r m := by
  rw [ceilDiv, Nat.le_div_iff_mul_le (by omega)]
  omega

theorem ceilDiv_le {r m : Nat} (hm : 1 ≤ m) : ceilDiv r m ≤ r := by
  by_contra h
  have := mul_lt_of_lt_ceilDiv hm (show r < ceilDiv r m by omega)
  have := Nat.le_mul_of_pos_right r (show 0 < m by omega)
  omega

/-- Every byte of a round lies in the chunk that its offset divided by the chunk size names. -/
theorem mem_chunk {r m x : Nat} (hm : 1 ≤ m) (hx : x < r) :
    x / m < ceilDiv r m ∧ x / m * m ≤ x ∧ x < x / m * m + min m (r - x / m * m) := by
  have h1 := Nat.div_add_mod x m
  have h2 := Nat.mod_lt x (show m > 0 by omega)
  rw [Nat.mul_comm] at h1
  have h3 := le_ceilDiv_mul r m hm
  refine ⟨?_, by omega, by omega⟩
  rw [Nat.div_lt_iff_lt_mul (by omega)]
  omega

@[simp] theorem minWindow_toNat (w : Half) (n : Word) : (minWindow w n).toNat = min w.toNat n.toNat := by
  have := w.isLt
  simp only [minWindow, BitVec.toNat_ofNat]
  omega

@[simp] theorem satAdd32_toNat (a b : Word) : (satAdd32 a b).toNat = min (a.toNat + b.toNat) 4294967295 := by
  simp only [satAdd32, BitVec.toNat_ofNat]
  omega

end Machine
end Sys2Proof
end

