-- ==== Sys2Proof/Laws/Crc.lean ====
section
/-! SUPPORT. CHECKSUM meets the constraint R5 puts on it: the open parameter by its type, the CRC-32 instance of the test
vectors by proof (I1). -/

namespace Sys2Proof.Machine

theorem crcBit_injective (c d : Word) (h : crcBit c = crcBit d) : c = d := by
  have hb : ∀ x : Word, (crcBit x).getLsbD 31 = x.getLsbD 0 := by
    intro x
    unfold crcBit
    split <;> rename_i h0
    · simp [h0]
    · simpa using h0
  have h0 : c.getLsbD 0 = d.getLsbD 0 := by rw [← hb c, ← hb d, h]
  have hs : c >>> 1 = d >>> 1 := by
    unfold crcBit at h
    rw [h0] at h
    split at h
    · simpa using congrArg (· ^^^ 0xEDB88320#32) h
    · exact h
  apply BitVec.eq_of_getLsbD_eq
  intro i hi
  cases i with
  | zero => exact h0
  | succ i =>
    have := congrArg (fun x : Word => x.getLsbD i) hs
    simpa [BitVec.getLsbD_ushiftRight, Nat.add_comm] using this

theorem crcBits_injective (n : Nat) (c d : Word) (h : crcBits n c = crcBits n d) : c = d := by
  induction n generalizing c d with
  | zero => exact h
  | succ n ih => exact crcBit_injective c d (ih _ _ h)

theorem crcByte_injective (c d : Word) (x : Byte) (h : crcByte c x = crcByte d x) : c = d := by
  simpa using congrArg (· ^^^ x.setWidth 32) (crcBits_injective 8 _ _ h)

theorem crcByte_injective_byte (c : Word) (x y : Byte) (h : crcByte c x = crcByte c y) : x = y := by
  have h1 := crcBits_injective 8 _ _ h
  have h2 : x.setWidth 32 = y.setWidth 32 := by simpa using congrArg (c ^^^ ·) h1
  have h3 := congrArg (BitVec.setWidth 8) h2
  simpa using h3

theorem crcRun_injective (c d : Word) (b : List Byte) (h : crcRun c b = crcRun d b) : c = d := by
  induction b generalizing c d with
  | nil => exact h
  | cons x b ih => exact crcByte_injective c d x (ih _ _ h)

theorem crcRun_append (c : Word) (p q : List Byte) : crcRun c (p ++ q) = crcRun (crcRun c p) q := by
  induction p generalizing c with
  | nil => rfl
  | cons x p ih => exact ih _

/-- Two byte sequences that differ in one byte have different CRC-32s. -/
theorem crc32_ne_of_byte_ne (p q : List Byte) (x y : Byte) (h : x ≠ y) :
    crc32 (p ++ x :: q) ≠ crc32 (p ++ y :: q) := by
  intro he
  apply h
  unfold crc32 at he
  have he := congrArg (· ^^^ 0xFFFFFFFF#32) he
  simp only [crcRun_append, crcRun] at he
  have h1 : crcRun (crcByte (crcRun 0xFFFFFFFF#32 p) x) q = crcRun (crcByte (crcRun 0xFFFFFFFF#32 p) y) q := by
    simpa using he
  exact crcByte_injective_byte _ _ _ (crcRun_injective _ _ q h1)

/-- I1: CRC-32 has the single-bit property of R5. -/
theorem crc32_singleBitSensitive : SingleBitSensitive crc32 := by
  intro b p hp
  have hi : p / 8 < b.length := by omega
  unfold flipBit
  rw [List.modify_eq_take_cons_drop hi]
  conv => rhs; rw [← List.take_append_drop (p / 8) b, List.drop_eq_getElem_cons hi]
  apply crc32_ne_of_byte_ne
  intro h
  have h2 := congrArg (· ^^^ b[p / 8]) h
  have h3 : BitVec.twoPow 8 (p % 8) = 0#8 := by
    simpa [BitVec.xor_comm, ← BitVec.xor_assoc] using h2
  have h4 := congrArg BitVec.toNat h3
  have h5 : p % 8 < 8 := Nat.mod_lt _ (by decide)
  revert h4
  generalize p % 8 = k at h5
  revert k
  decide

end Sys2Proof.Machine

namespace Sys2Proof

/-- R5, R6: every CHECKSUM a parameter record can name has the single-bit property. -/
theorem Checksum.eval_singleBitSensitive (c : Checksum) : SingleBitSensitive c.eval := by
  cases c
  · exact Config.checksum.sensitive
  · exact Machine.crc32_singleBitSensitive

end Sys2Proof
end

