-- ==== Sys2Proof/Laws/Memory.lean ====
section
/-! SUPPORT. Host memory: read after write, what a write leaves alone, and that every operation keeps the canonical
form. -/

namespace Sys2Proof.Machine

theorem Memory.get_eq_default_of_lt (lo : Nat) (m : Memory) (h : Memory.wfFrom lo m = true) (a : Nat) (ha : a < lo) :
    m.get a = memDefault := by
  induction m generalizing lo with
  | nil => rfl
  | cons c m ih =>
    obtain ⟨y, w⟩ := c
    simp only [Memory.wfFrom, Bool.and_eq_true, decide_eq_true_eq] at h
    have : a ≠ y := by omega
    simpa [Memory.get, this] using ih (y + 1) h.2 (by omega)

theorem Memory.get_set_same (m : Memory) (a : Nat) (b : Byte) (lo : Nat) (h : Memory.wfFrom lo m = true) :
    (m.set a b).get a = b := by
  induction m generalizing lo with
  | nil => by_cases hb : b = memDefault <;> simp [Memory.set, Memory.get, hb]
  | cons c m ih =>
    obtain ⟨x, v⟩ := c
    simp only [Memory.wfFrom, Bool.and_eq_true, decide_eq_true_eq] at h
    simp only [Memory.set]
    split
    · split <;> rename_i hlt hb
      · have : a ≠ x := by omega
        rw [Memory.get, if_neg this, Memory.get_eq_default_of_lt (x + 1) m h.2 a (by omega), hb]
      · simp [Memory.get]
    · split
      · split <;> rename_i hax hb
        · rw [hb]; exact Memory.get_eq_default_of_lt (x + 1) m h.2 a (by omega)
        · simp [Memory.get]
      · rename_i hlt hne
        simpa [Memory.get, hne] using ih (x + 1) h.2

theorem Memory.get_set_ne (m : Memory) (a x : Nat) (b : Byte) (lo : Nat) (h : Memory.wfFrom lo m = true)
    (hx : x ≠ a) : (m.set a b).get x = m.get x := by
  induction m generalizing lo with
  | nil => by_cases hb : b = memDefault <;> simp [Memory.set, Memory.get, hb, hx]
  | cons c m ih =>
    obtain ⟨y, v⟩ := c
    simp only [Memory.wfFrom, Bool.and_eq_true, decide_eq_true_eq] at h
    simp only [Memory.set]
    split
    · split
      · rfl
      · simp [Memory.get, hx]
    · split
      · split <;> rename_i hay hb
        · subst hay
          rw [Memory.get, if_neg hx]
        · subst hay
          simp [Memory.get, hx]
      · simp only [Memory.get]
        split
        · rfl
        · exact ih (y + 1) h.2

theorem Memory.wfFrom_mono (lo lo' : Nat) (m : Memory) (h : Memory.wfFrom lo m = true) (hl : lo' ≤ lo) :
    Memory.wfFrom lo' m = true := by
  cases m with
  | nil => rfl
  | cons c m =>
    obtain ⟨x, v⟩ := c
    simp only [Memory.wfFrom, Bool.and_eq_true, decide_eq_true_eq] at h ⊢
    exact ⟨⟨⟨by omega, h.1.1.2⟩, h.1.2⟩, h.2⟩

theorem Memory.wfFrom_set (m : Memory) (a : Nat) (b : Byte) (lo : Nat) (h : Memory.wfFrom lo m = true)
    (hlo : lo ≤ a) (ha : a < 4294967296) : Memory.wfFrom lo (m.set a b) = true := by
  induction m generalizing lo with
  | nil =>
    by_cases hb : b = memDefault
    · simp [Memory.set, Memory.wfFrom, hb]
    · simpa [Memory.set, Memory.wfFrom, hb, hlo] using ha
  | cons c m ih =>
    obtain ⟨x, v⟩ := c
    have h' := h
    simp only [Memory.wfFrom, Bool.and_eq_true, decide_eq_true_eq] at h
    obtain ⟨⟨⟨h1, h2⟩, h3⟩, h4⟩ := h
    simp only [Memory.set]
    split
    · split
      · exact h'
      · rename_i hlt hb
        simp only [Memory.wfFrom, Bool.and_eq_true, decide_eq_true_eq]
        exact ⟨⟨⟨hlo, ha⟩, hb⟩, ⟨⟨by omega, h2⟩, h3⟩, h4⟩
    · split
      · split <;> rename_i hax hb
        · exact Memory.wfFrom_mono (x + 1) lo m h4 (by omega)
        · subst hax
          simp only [Memory.wfFrom, Bool.and_eq_true, decide_eq_true_eq]
          exact ⟨⟨⟨hlo, ha⟩, hb⟩, h4⟩
      · simp only [Memory.wfFrom, Bool.and_eq_true, decide_eq_true_eq]
        exact ⟨⟨⟨h1, h2⟩, h3⟩, ih (x + 1) h4 (by omega)⟩

/-- Every write inside the address space keeps the canonical form. -/
theorem Memory.wf_set (m : Memory) (a : Nat) (b : Byte) (h : m.wf = true) (ha : a < 4294967296) :
    (m.set a b).wf = true := Memory.wfFrom_set m a b 0 h (by omega) ha

/-- Every write of bytes inside the address space keeps the canonical form. -/
theorem Memory.wf_writeBytes (m : Memory) (a : Nat) (bs : List Byte) (h : m.wf = true)
    (ha : a + bs.length ≤ 4294967296) : (m.writeBytes a bs).wf = true := by
  induction bs generalizing m a with
  | nil => exact h
  | cons b bs ih =>
    simp only [List.length_cons] at ha
    exact ih (m.set a b) (a + 1) (Memory.wf_set m a b h (by omega)) (by omega)

/-- What a write of bytes leaves reads as before outside them. -/
theorem Memory.get_writeBytes_outside (m : Memory) (a : Nat) (bs : List Byte) (h : m.wf = true)
    (ha : a + bs.length ≤ 4294967296) (x : Nat) (hx : x < a ∨ a + bs.length ≤ x) :
    (m.writeBytes a bs).get x = m.get x := by
  induction bs generalizing m a with
  | nil => rfl
  | cons b bs ih =>
    simp only [List.length_cons] at ha hx
    rw [Memory.writeBytes, ih (m.set a b) (a + 1) (Memory.wf_set m a b h (by omega)) (by omega) (by omega)]
    exact Memory.get_set_ne m a x b 0 h (by omega)

/-- A write of bytes stores them at increasing addresses. -/
theorem Memory.get_writeBytes_inside (m : Memory) (a : Nat) (bs : List Byte) (h : m.wf = true)
    (ha : a + bs.length ≤ 4294967296) (i : Nat) (hi : i < bs.length) :
    (m.writeBytes a bs).get (a + i) = bs.getD i 0 := by
  induction bs generalizing m a i with
  | nil => simp at hi
  | cons b bs ih =>
    simp only [List.length_cons] at ha hi
    have hw := Memory.wf_set m a b h (by omega)
    cases i with
    | zero =>
      rw [Memory.writeBytes, Memory.get_writeBytes_outside _ _ _ hw (by omega) _ (by omega)]
      simpa using Memory.get_set_same m a b 0 h
    | succ i =>
      have := ih (m.set a b) (a + 1) hw (by omega) i (by omega)
      rw [Memory.writeBytes, show a + (i + 1) = a + 1 + i by omega, this]
      simp

@[simp] theorem Memory.length_readBytes (m : Memory) (a n : Nat) : (m.readBytes a n).length = n := by
  simp [Memory.readBytes]

theorem Memory.getD_readBytes (m : Memory) (a n i : Nat) (h : i < n) : (m.readBytes a n).getD i 0 = m.get (a + i) := by
  simp [Memory.readBytes, List.getD_eq_getElem?_getD, h]

@[simp] theorem Memory.readBytes_zero (m : Memory) (a : Nat) : m.readBytes a 0 = [] := rfl

/-- Bytes written read back. -/
theorem Memory.readBytes_writeBytes (m : Memory) (a : Nat) (bs : List Byte) (h : m.wf = true)
    (ha : a + bs.length ≤ 4294967296) : (m.writeBytes a bs).readBytes a bs.length = bs := by
  apply List.ext_getElem
  · simp
  · intro i h1 h2
    have := Memory.get_writeBytes_inside m a bs h ha i h2
    simp [Memory.readBytes, this, h2]

end Sys2Proof.Machine
end

