-- ==== Sys2Proof/Laws/Ops.lean ====
section
/-! SUPPORT. What the shared operations can do, said once: the engine's accesses to host memory, the chunks of a round,
the next event of the order. -/

namespace Sys2Proof.Machine

/-! ### Admission (R62) -/

theorem covers_iff (r : LentRange) (k : Access) (x : Nat) :
    r.covers k x = true ↔ r.kind = k ∧ r.base ≤ x ∧ x < r.base + r.len := by
  simp [LentRange.covers, and_assoc]

/-- Admission of an access of at least one byte is what `Lends` says. -/
theorem admitted_iff_lends (s : State) (k : Access) (a n : Nat) (hn : 0 < n) :
    admitted s.lent a n k = true ↔ Lends s k a n := by
  have h0 : n ≠ 0 := by omega
  simp only [admitted, h0, decide_false, Bool.false_or, Bool.and_eq_true, hostRangeOk, decide_eq_true_eq,
    List.all_eq_true, List.mem_range, List.any_eq_true, covers_iff, Lends]
  refine and_congr_right fun _ => ⟨fun h x hx hx' => ?_, fun h i hi => h (a + i) (by omega) (by omega)⟩
  have := h (x - a) (by omega)
  rwa [show a + (x - a) = x by omega] at this

theorem admitted_of_lends (s : State) (k : Access) (a n : Nat) (h : Lends s k a n) : admitted s.lent a n k = true := by
  rcases Nat.eq_zero_or_pos n with rfl | hn
  · simp [admitted]
  · exact (admitted_iff_lends s k a n hn).2 h

theorem Lends.sub {s : State} {k : Access} {a n : Nat} (h : Lends s k a n) (b m : Nat) (hb : a ≤ b)
    (hm : b + m ≤ a + n) : Lends s k b m :=
  ⟨by have := h.1; omega, fun x hx hx' => h.2 x (by omega) (by omega)⟩

theorem memRead_of_lends (s : State) (a n : Nat) (k : List Byte → Out) (h : Lends s .read a n) :
    memRead s a n k = k (s.mem.readBytes a n) := if_pos (admitted_of_lends s .read a n h)

theorem memWrite_of_lends (s : State) (a : Nat) (v : List Byte) (k : State → Out) (h : Lends s .write a v.length) :
    memWrite s a v k = k { s with mem := s.mem.writeBytes a v } := if_pos (admitted_of_lends s .write a _ h)

theorem memRead_of_not_lends (s : State) (a n : Nat) (k : List Byte → Out) (hn : 0 < n) (h : ¬ Lends s .read a n) :
    memRead s a n k = .fault (.memNotAdmitted .read a n) :=
  if_neg fun hh => h ((admitted_iff_lends s .read a n hn).1 hh)

theorem memWrite_of_not_lends (s : State) (a : Nat) (v : List Byte) (k : State → Out) (hn : 0 < v.length)
    (h : ¬ Lends s .write a v.length) : memWrite s a v k = .fault (.memNotAdmitted .write a v.length) :=
  if_neg fun hh => h ((admitted_iff_lends s .write a _ hn).1 hh)

/-- All a MemRead can do when its step completes. -/
theorem memRead_next {s : State} {a n : Nat} {k : List Byte → Out} {t : State} (h : memRead s a n k = .next t) :
    admitted s.lent a n .read = true ∧ k (s.mem.readBytes a n) = .next t := by
  unfold memRead at h
  split at h
  · exact ⟨‹_›, h⟩
  · cases h

/-- All a MemWrite can do when its step completes. -/
theorem memWrite_next {s : State} {a : Nat} {v : List Byte} {k : State → Out} {t : State}
    (h : memWrite s a v k = .next t) :
    admitted s.lent a v.length .write = true ∧ k { s with mem := s.mem.writeBytes a v } = .next t := by
  unfold memWrite at h
  split at h
  · exact ⟨‹_›, h⟩
  · cases h

/-- Each byte of an admitted access lies inside the address space and a range lent for its kind. -/
theorem admitted_byte {l : List LentRange} {a n : Nat} {k : Access} (h : admitted l a n k = true) (x : Nat)
    (hx : a ≤ x) (hx' : x < a + n) :
    x < 4294967296 ∧ ∃ r ∈ l, r.kind = k ∧ r.base ≤ x ∧ x < r.base + r.len := by
  have h0 : n ≠ 0 := by omega
  simp only [admitted, h0, decide_false, Bool.false_or, Bool.and_eq_true, hostRangeOk, decide_eq_true_eq,
    List.all_eq_true, List.mem_range, List.any_eq_true, covers_iff] at h
  refine ⟨by omega, ?_⟩
  have := h.2 (x - a) (by omega)
  rwa [show a + (x - a) = x by omega] at this

theorem admitted_range {l : List LentRange} {a n : Nat} {k : Access} (h : admitted l a n k = true) (hn : 0 < n) :
    a + n ≤ 4294967296 := by
  have := (admitted_byte h (a + n - 1) (by omega) (by omega)).1
  omega

/-- An admitted write of bytes keeps memory in canonical form. -/
theorem wf_writeBytes_of_admitted {l : List LentRange} {m : Memory} {a : Nat} {v : List Byte}
    (h : admitted l a v.length .write = true) (hm : m.wf = true) : (m.writeBytes a v).wf = true := by
  cases v with
  | nil => exact hm
  | cons x v => exact Memory.wf_writeBytes m a _ hm (admitted_range h (by simp))

/-- An admitted write changes only the bytes it covers. -/
theorem get_writeBytes_of_admitted {l : List LentRange} {m : Memory} {a : Nat} {v : List Byte}
    (h : admitted l a v.length .write = true) (hm : m.wf = true) (x : Nat)
    (hx : (m.writeBytes a v).get x ≠ m.get x) : a ≤ x ∧ x < a + v.length := by
  cases v with
  | nil => exact absurd rfl hx
  | cons y v =>
    by_contra hc
    exact hx (Memory.get_writeBytes_outside m a _ hm (admitted_range h (by simp)) x (by omega))

/-! ### The CONN_STATE check (R122, R123) -/

theorem whenPre_pos {i : Instr} {s : State} (h : pre i s.status.connState = true) (body : Out) :
    whenPre i s body = body := if_pos h

theorem whenPre_neg {i : Instr} {s : State} (h : pre i s.status.connState = false) (body : Out) :
    whenPre i s body = .next (fail .precondition 0 s) := if_neg (by simp [h])

/-- All the check can do. -/
theorem whenPre_cases {i : Instr} {s t : State} {body : Out} (h : whenPre i s body = .next t) :
    (pre i s.status.connState = false ∧ t = fail .precondition 0 s) ∨
      (pre i s.status.connState = true ∧ body = .next t) := by
  unfold whenPre at h
  split at h
  · exact .inr ⟨‹_›, h⟩
  · cases h
    exact .inl ⟨by simp_all, rfl⟩

/-! ### The chunks of a round (R204, R205) -/

/-- The datagram of chunk `i` of the current round, from the memory the round is read from. -/
def chunkTx (s : State) (i : Nat) : Tx :=
  ⟨s.conn.peerAddr, chunkSegment s i (s.mem.readBytes (chunkAddr s i) (chunkLen s i))⟩

/-- All a run of chunks can do: hand them over in order. -/
theorem transmitChunks_next {n i : Nat} {s t : State} (h : transmitChunks n i s = .next t) :
    t = { s with tx := s.tx ++ (List.range' i n).map (chunkTx s) } ∧
      ∀ j, i ≤ j → j < i + n → admitted s.lent (chunkAddr s j) (chunkLen s j) .read = true := by
  induction n generalizing i s with
  | zero =>
    cases h
    exact ⟨by simp, fun j _ _ => by omega⟩
  | succ n ih =>
    obtain ⟨ha, h⟩ := memRead_next h
    obtain ⟨rfl, hb⟩ := ih h
    refine ⟨by simp [transmit, List.range'_succ, chunkTx, chunkSegment, chunkAddr, chunkLen, State.ck, off], ?_⟩
    intro j hj hj'
    by_cases hij : j = i
    · exact hij ▸ ha
    · exact hb j (by omega) (by omega)

/-- The chunks leave when the host has lent what they are read from. -/
theorem transmitChunks_of_lends (n i : Nat) (s : State)
    (h : ∀ j, i ≤ j → j < i + n → Lends s .read (chunkAddr s j) (chunkLen s j)) :
    transmitChunks n i s = .next { s with tx := s.tx ++ (List.range' i n).map (chunkTx s) } := by
  induction n generalizing i s with
  | zero => simp [transmitChunks]
  | succ n ih =>
    rw [transmitChunks, memRead_of_lends _ _ _ _ (h i (by omega) (by omega)), ih]
    · simp [transmit, List.range'_succ, chunkTx, chunkSegment, chunkAddr, chunkLen, State.ck, off]
    · exact fun j hj hj' => h j (by omega) (by omega)

/-! ### The next event (R131, R297) -/

/-- In a wait phase the first event is next. -/
@[simp] theorem takeNext_wait (ph : Phase) (h : ph ≠ .idle) (i : Input) (rest : List Input) :
    takeNext ph (i :: rest) = some (i, rest) := by simp [takeNext, h]

/-- An event that is no RX event and comes first is next in every phase. -/
@[simp] theorem takeNext_other (ph : Phase) (i : Input) (h : i.isRx = false) (rest : List Input) :
    takeNext ph (i :: rest) = some (i, rest) := by simp [takeNext, h]

/-- In IDLE the held RX events are passed over. -/
theorem takeNext_idle_held (held rest : List Input) (i : Input) (hh : ∀ j ∈ held, j.isRx = true)
    (hi : i.isRx = false) : takeNext .idle (held ++ i :: rest) = some (i, held ++ rest) := by
  induction held with
  | nil => simp [hi]
  | cons j held ih =>
    have := ih fun k hk => hh k (List.mem_cons_of_mem _ hk)
    simp [takeNext, hh j (by simp), this]

/-- In IDLE, with RX events alone, nothing is taken. -/
theorem takeNext_idle_none (l : List Input) (h : ∀ j ∈ l, j.isRx = true) : takeNext .idle l = none := by
  induction l with
  | nil => rfl
  | cons j l ih =>
    have := ih fun k hk => h k (List.mem_cons_of_mem _ hk)
    simp [takeNext, h j (by simp), this]

/-- In IDLE no RX event is taken. -/
theorem takeNext_idle_not_rx {l left : List Input} {i : Input} (h : takeNext .idle l = some (i, left)) :
    i.isRx = false := by
  induction l generalizing left with
  | nil => cases h
  | cons j l ih =>
    simp only [takeNext, true_and] at h
    split at h
    · split at h
      · cases h
      · rename_i heq
        cases h
        exact ih heq
    · cases h
      simp_all

/-- The step, once its event is known. -/
theorem step_of_takeNext {s : State} {i : Input} {left : List Input}
    (h : takeNext s.status.phase s.inputs = some (i, left)) : step s = applyInput i { s with inputs := left } := by
  simp [step, stepOnce, h]

/-- All a step can do: nothing, when there is no event to take, or the effect of the next event. -/
theorem step_cases {s t : State} (h : step s = .next t) :
    (takeNext s.status.phase s.inputs = none ∧ t = s) ∨
    ∃ i left, takeNext s.status.phase s.inputs = some (i, left) ∧ applyInput i { s with inputs := left } = .next t := by
  unfold step stepOnce at h
  split at h
  · cases h
    exact .inl ⟨‹_›, rfl⟩
  · exact .inr ⟨_, _, ‹_›, h⟩

end Sys2Proof.Machine
end

