-- ==== Sys2Proof/Laws/Segment.lean ====
section
/-! SUPPORT. Byte encodings read back, the lengths of built segments, and what sealing changes. -/

namespace Sys2Proof.Machine

@[simp] theorem be16_length (v : Half) : (be16 v).length = 2 := rfl
@[simp] theorem be32_length (v : Word) : (be32 v).length = 4 := rfl
@[simp] theorem zeros_length (n : Nat) : (zeros n).length = n := by simp [zeros]
@[simp] theorem hdr_length (q a : Word) (c w : Half) (d : Word) : (hdr q a c w d).length = 32 := by
  simp [hdr]
@[simp] theorem lengthPrefix_length (l : Word) : (lengthPrefix l).length = 4 := rfl

theorem append16 (v : Half) : (v.extractLsb' 8 8 ++ v.extractLsb' 0 8 : Half) = v := by
  apply BitVec.eq_of_getLsbD_eq
  intro i hi
  simp only [BitVec.getLsbD_append, BitVec.getLsbD_extractLsb']
  by_cases h : i < 8
  · simp [h]
  · simp [h, show i - 8 < 8 by omega, show 8 + (i - 8) = i by omega]

theorem append32 (v : Word) :
    ((v.extractLsb' 24 8 ++ v.extractLsb' 16 8 : BitVec 16) ++ (v.extractLsb' 8 8 ++ v.extractLsb' 0 8 : BitVec 16) :
      Word) = v := by
  apply BitVec.eq_of_getLsbD_eq
  intro i hi
  simp only [BitVec.getLsbD_append, BitVec.getLsbD_extractLsb']
  by_cases h1 : i < 8
  · simp [h1, show i < 16 by omega]
  · by_cases h2 : i < 16
    · simp [h1, h2, show i - 8 < 8 by omega, show 8 + (i - 8) = i by omega]
    · by_cases h3 : i < 24
      · simp [h2, show i - 16 < 8 by omega, show 16 + (i - 16) = i by omega]
      · simp [h2, show ¬ i - 16 < 8 by omega, show i - 16 - 8 < 8 by omega,
          show 24 + (i - 16 - 8) = i by omega]

/-- An integer read from the bytes of its encoding, wherever they stand. -/
theorem rdBe32_append (p : List Byte) (v : Word) (q : List Byte) : rdBe32 (p ++ be32 v ++ q) p.length = v := by
  simp only [rdBe32, rdBe16, byteAt, be32, List.getD_eq_getElem?_getD, List.append_assoc, List.cons_append,
    List.nil_append]
  rw [List.getElem?_append_right (by omega), List.getElem?_append_right (by omega),
    List.getElem?_append_right (by omega), List.getElem?_append_right (by omega)]
  simpa [show p.length + 2 - p.length = 2 by omega, show p.length + 2 + 1 - p.length = 3 by omega]
    using append32 v

theorem rdBe16_append (p : List Byte) (v : Half) (q : List Byte) : rdBe16 (p ++ be16 v ++ q) p.length = v := by
  simp only [rdBe16, byteAt, be16, List.getD_eq_getElem?_getD, List.append_assoc, List.cons_append,
    List.nil_append]
  rw [List.getElem?_append_right (by omega), List.getElem?_append_right (by omega)]
  simpa using append16 v

@[simp] theorem rdBe32_be32 (v : Word) : rdBe32 (be32 v) 0 = v := by simpa using rdBe32_append [] v []

/-! ### Fields of a header followed by anything -/

@[simp] theorem seqOf_hdr (q a : Word) (c w : Half) (d : Word) (p : List Byte) : seqOf (hdr q a c w d ++ p) = q := by
  simpa [seqOf, hdr] using rdBe32_append [] q (be32 a ++ be16 c ++ be16 w ++ be32 d ++ zeros 12 ++ be32 0 ++ p)

@[simp] theorem ackOf_hdr (q a : Word) (c w : Half) (d : Word) (p : List Byte) : ackOf (hdr q a c w d ++ p) = a := by
  simpa [ackOf, hdr] using rdBe32_append (be32 q) a (be16 c ++ be16 w ++ be32 d ++ zeros 12 ++ be32 0 ++ p)

@[simp] theorem ctrlOf_hdr (q a : Word) (c w : Half) (d : Word) (p : List Byte) : ctrlOf (hdr q a c w d ++ p) = c := by
  simpa [ctrlOf, hdr] using rdBe16_append (be32 q ++ be32 a) c (be16 w ++ be32 d ++ zeros 12 ++ be32 0 ++ p)

@[simp] theorem winOf_hdr (q a : Word) (c w : Half) (d : Word) (p : List Byte) : winOf (hdr q a c w d ++ p) = w := by
  simpa [winOf, hdr] using rdBe16_append (be32 q ++ be32 a ++ be16 c) w (be32 d ++ zeros 12 ++ be32 0 ++ p)

@[simp] theorem dlenOf_hdr (q a : Word) (c w : Half) (d : Word) (p : List Byte) : dlenOf (hdr q a c w d ++ p) = d := by
  simpa [dlenOf, hdr] using
    rdBe32_append (be32 q ++ be32 a ++ be16 c ++ be16 w) d (zeros 12 ++ be32 0 ++ p)

@[simp] theorem payloadOf_hdr (q a : Word) (c w : Half) (d : Word) (p : List Byte) :
    payloadOf (hdr q a c w d ++ p) = p := by
  simp [payloadOf]

/-! ### Sealing -/

@[simp] theorem sealWith_length (ck : List Byte → Word) (b : List Byte) (h : 32 ≤ b.length) :
    (sealWith ck b).length = b.length := by
  simp [sealWith]; omega

/-- Sealing keeps the first 28 bytes. -/
theorem take_sealWith (ck : List Byte → Word) (b : List Byte) (h : 32 ≤ b.length) :
    (sealWith ck b).take 28 = b.take 28 := by
  simp [sealWith, show 28 ≤ b.length by omega]

/-- Sealing keeps the payload. -/
@[simp] theorem drop_sealWith (ck : List Byte → Word) (b : List Byte) (h : 32 ≤ b.length) :
    (sealWith ck b).drop 32 = b.drop 32 := by
  have h28 : (b.take 28 ++ be32 (ck (csumInput b))).length = 32 := by simp; omega
  simpa [sealWith] using List.drop_left' (l₂ := b.drop 32) h28

theorem byteAt_sealWith_low (ck : List Byte → Word) (b : List Byte) (h : 32 ≤ b.length) (i : Nat) (hi : i < 28) :
    byteAt (sealWith ck b) i = byteAt b i := by
  have h1 : (sealWith ck b)[i]? = ((sealWith ck b).take 28)[i]? := by rw [List.getElem?_take_of_lt hi]
  have h2 : b[i]? = (b.take 28)[i]? := by rw [List.getElem?_take_of_lt hi]
  simp only [byteAt, List.getD_eq_getElem?_getD, h1, take_sealWith ck b h, h2]

/-- The checksum input does not see the checksum field (R140). -/
@[simp] theorem csumInput_sealWith (ck : List Byte → Word) (b : List Byte) (h : 32 ≤ b.length) :
    csumInput (sealWith ck b) = csumInput b := by
  simp [csumInput, take_sealWith ck b h, drop_sealWith ck b h]

@[simp] theorem csumOf_sealWith (ck : List Byte → Word) (b : List Byte) (h : 32 ≤ b.length) :
    csumOf (sealWith ck b) = ck (csumInput b) := by
  have h28 : (b.take 28).length = 28 := by simp; omega
  have := rdBe32_append (b.take 28) (ck (csumInput b)) (b.drop 32)
  rwa [h28] at this

/-- R151: a sealed segment verifies. -/
@[simp] theorem verifyWith_sealWith (ck : List Byte → Word) (b : List Byte) (h : 32 ≤ b.length) :
    verifyWith ck (sealWith ck b) = true := by
  simp [verifyWith, h]

@[simp] theorem seqOf_sealWith (ck : List Byte → Word) (b : List Byte) (h : 32 ≤ b.length) :
    seqOf (sealWith ck b) = seqOf b := by
  simp [seqOf, rdBe32, rdBe16, byteAt_sealWith_low ck b h]

@[simp] theorem ackOf_sealWith (ck : List Byte → Word) (b : List Byte) (h : 32 ≤ b.length) :
    ackOf (sealWith ck b) = ackOf b := by
  simp [ackOf, rdBe32, rdBe16, byteAt_sealWith_low ck b h]

@[simp] theorem ctrlOf_sealWith (ck : List Byte → Word) (b : List Byte) (h : 32 ≤ b.length) :
    ctrlOf (sealWith ck b) = ctrlOf b := by
  simp [ctrlOf, rdBe16, byteAt_sealWith_low ck b h]

@[simp] theorem winOf_sealWith (ck : List Byte → Word) (b : List Byte) (h : 32 ≤ b.length) :
    winOf (sealWith ck b) = winOf b := by
  simp [winOf, rdBe16, byteAt_sealWith_low ck b h]

@[simp] theorem dlenOf_sealWith (ck : List Byte → Word) (b : List Byte) (h : 32 ≤ b.length) :
    dlenOf (sealWith ck b) = dlenOf b := by
  simp [dlenOf, rdBe32, rdBe16, byteAt_sealWith_low ck b h]

@[simp] theorem payloadOf_sealWith (ck : List Byte → Word) (b : List Byte) (h : 32 ≤ b.length) :
    payloadOf (sealWith ck b) = payloadOf b := by
  simp [payloadOf, h]

/-! ### Built headers (R141) -/

@[simp] theorem buildHeader_length (c : Half) (s : State) : (buildHeader c s).length = 32 := by
  simp [buildHeader]

@[simp] theorem verifyWith_buildHeader (c : Half) (s : State) : verifyWith s.ck (buildHeader c s) = true := by
  simp [buildHeader]

@[simp] theorem seqOf_buildHeader (c : Half) (s : State) : seqOf (buildHeader c s) = s.conn.seq := by
  have := seqOf_hdr s.conn.seq s.conn.ack c s.conn.currWindow 0 []
  simpa [buildHeader] using this

@[simp] theorem ackOf_buildHeader (c : Half) (s : State) : ackOf (buildHeader c s) = s.conn.ack := by
  have := ackOf_hdr s.conn.seq s.conn.ack c s.conn.currWindow 0 []
  simpa [buildHeader] using this

@[simp] theorem ctrlOf_buildHeader (c : Half) (s : State) : ctrlOf (buildHeader c s) = c := by
  have := ctrlOf_hdr s.conn.seq s.conn.ack c s.conn.currWindow 0 []
  simpa [buildHeader] using this

@[simp] theorem winOf_buildHeader (c : Half) (s : State) : winOf (buildHeader c s) = s.conn.currWindow := by
  have := winOf_hdr s.conn.seq s.conn.ack c s.conn.currWindow 0 []
  simpa [buildHeader] using this

/-- A built header is classed by its control bits. -/
theorem classify_buildHeader (c : Half) (s : State) : classify (buildHeader c s) = classifyCtrl c := by
  simp [classify]

end Sys2Proof.Machine
end

