-- ==== Sys2Proof/Laws/State.lean ====
section
/-! SUPPORT. One lemma per field and update of the state: what each named update writes and what it leaves. -/

namespace Sys2Proof.Machine

/-! ### complete -/

@[simp] theorem complete_cfg (r : Word) (s : State) : (complete r s).cfg = s.cfg := rfl
@[simp] theorem complete_arg0 (r : Word) (s : State) : (complete r s).arg0 = s.arg0 := rfl
@[simp] theorem complete_arg1 (r : Word) (s : State) : (complete r s).arg1 = s.arg1 := rfl
@[simp] theorem complete_result (r : Word) (s : State) : (complete r s).result = r := rfl
@[simp] theorem complete_irqEn (r : Word) (s : State) : (complete r s).irqEn = s.irqEn := rfl
@[simp] theorem complete_status_done (r : Word) (s : State) : (complete r s).status.done = true := rfl
@[simp] theorem complete_status_err (r : Word) (s : State) : (complete r s).status.err = false := rfl
@[simp] theorem complete_status_cmdOverrun (r : Word) (s : State) : (complete r s).status.cmdOverrun = s.status.cmdOverrun := rfl
@[simp] theorem complete_status_errCode (r : Word) (s : State) : (complete r s).status.errCode = .none := rfl
@[simp] theorem complete_status_connState (r : Word) (s : State) : (complete r s).status.connState = s.status.connState := rfl
@[simp] theorem complete_status_role (r : Word) (s : State) : (complete r s).status.role = s.status.role := rfl
@[simp] theorem complete_status_finSeen (r : Word) (s : State) : (complete r s).status.finSeen = s.status.finSeen := rfl
@[simp] theorem complete_status_csumLog (r : Word) (s : State) : (complete r s).status.csumLog = s.status.csumLog := rfl
@[simp] theorem complete_status_protoLog (r : Word) (s : State) : (complete r s).status.protoLog = s.status.protoLog := rfl
@[simp] theorem complete_status_rxbufValid (r : Word) (s : State) : (complete r s).status.rxbufValid = s.status.rxbufValid := rfl
@[simp] theorem complete_status_phase (r : Word) (s : State) : (complete r s).status.phase = .idle := rfl
@[simp] theorem complete_status_rxTotalValid (r : Word) (s : State) : (complete r s).status.rxTotalValid = s.status.rxTotalValid := rfl
@[simp] theorem complete_conn (r : Word) (s : State) : (complete r s).conn = s.conn := rfl
@[simp] theorem complete_count (r : Word) (s : State) : (complete r s).count = s.count := rfl
@[simp] theorem complete_prog (r : Word) (s : State) : (complete r s).prog = s.prog := rfl
@[simp] theorem complete_cmd (r : Word) (s : State) : (complete r s).cmd = s.cmd := rfl
@[simp] theorem complete_snd (r : Word) (s : State) : (complete r s).snd = s.snd := rfl
@[simp] theorem complete_rcv (r : Word) (s : State) : (complete r s).rcv = s.rcv := rfl
@[simp] theorem complete_consecTo (r : Word) (s : State) : (complete r s).consecTo = s.consecTo := rfl
@[simp] theorem complete_recvBuffer (r : Word) (s : State) : (complete r s).recvBuffer = s.recvBuffer := rfl
@[simp] theorem complete_mem (r : Word) (s : State) : (complete r s).mem = s.mem := rfl
@[simp] theorem complete_lent (r : Word) (s : State) : (complete r s).lent = s.lent := rfl
@[simp] theorem complete_inputs (r : Word) (s : State) : (complete r s).inputs = s.inputs := rfl
@[simp] theorem complete_tx (r : Word) (s : State) : (complete r s).tx = s.tx := rfl
@[simp] theorem complete_readData (r : Word) (s : State) : (complete r s).readData = s.readData := rfl

/-! ### fail -/

@[simp] theorem fail_cfg (c : ErrCode) (r : Word) (s : State) : (fail c r s).cfg = s.cfg := rfl
@[simp] theorem fail_arg0 (c : ErrCode) (r : Word) (s : State) : (fail c r s).arg0 = s.arg0 := rfl
@[simp] theorem fail_arg1 (c : ErrCode) (r : Word) (s : State) : (fail c r s).arg1 = s.arg1 := rfl
@[simp] theorem fail_result (c : ErrCode) (r : Word) (s : State) : (fail c r s).result = r := rfl
@[simp] theorem fail_irqEn (c : ErrCode) (r : Word) (s : State) : (fail c r s).irqEn = s.irqEn := rfl
@[simp] theorem fail_status_done (c : ErrCode) (r : Word) (s : State) : (fail c r s).status.done = true := rfl
@[simp] theorem fail_status_err (c : ErrCode) (r : Word) (s : State) : (fail c r s).status.err = true := rfl
@[simp] theorem fail_status_cmdOverrun (c : ErrCode) (r : Word) (s : State) : (fail c r s).status.cmdOverrun = s.status.cmdOverrun := rfl
@[simp] theorem fail_status_errCode (c : ErrCode) (r : Word) (s : State) : (fail c r s).status.errCode = c := rfl
@[simp] theorem fail_status_connState (c : ErrCode) (r : Word) (s : State) : (fail c r s).status.connState = s.status.connState := rfl
@[simp] theorem fail_status_role (c : ErrCode) (r : Word) (s : State) : (fail c r s).status.role = s.status.role := rfl
@[simp] theorem fail_status_finSeen (c : ErrCode) (r : Word) (s : State) : (fail c r s).status.finSeen = s.status.finSeen := rfl
@[simp] theorem fail_status_csumLog (c : ErrCode) (r : Word) (s : State) : (fail c r s).status.csumLog = s.status.csumLog := rfl
@[simp] theorem fail_status_protoLog (c : ErrCode) (r : Word) (s : State) : (fail c r s).status.protoLog = s.status.protoLog := rfl
@[simp] theorem fail_status_rxbufValid (c : ErrCode) (r : Word) (s : State) : (fail c r s).status.rxbufValid = s.status.rxbufValid := rfl
@[simp] theorem fail_status_phase (c : ErrCode) (r : Word) (s : State) : (fail c r s).status.phase = .idle := rfl
@[simp] theorem fail_status_rxTotalValid (c : ErrCode) (r : Word) (s : State) : (fail c r s).status.rxTotalValid = s.status.rxTotalValid := rfl
@[simp] theorem fail_conn (c : ErrCode) (r : Word) (s : State) : (fail c r s).conn = s.conn := rfl
@[simp] theorem fail_count (c : ErrCode) (r : Word) (s : State) : (fail c r s).count = s.count := rfl
@[simp] theorem fail_prog (c : ErrCode) (r : Word) (s : State) : (fail c r s).prog = s.prog := rfl
@[simp] theorem fail_cmd (c : ErrCode) (r : Word) (s : State) : (fail c r s).cmd = s.cmd := rfl
@[simp] theorem fail_snd (c : ErrCode) (r : Word) (s : State) : (fail c r s).snd = s.snd := rfl
@[simp] theorem fail_rcv (c : ErrCode) (r : Word) (s : State) : (fail c r s).rcv = s.rcv := rfl
@[simp] theorem fail_consecTo (c : ErrCode) (r : Word) (s : State) : (fail c r s).consecTo = s.consecTo := rfl
@[simp] theorem fail_recvBuffer (c : ErrCode) (r : Word) (s : State) : (fail c r s).recvBuffer = s.recvBuffer := rfl
@[simp] theorem fail_mem (c : ErrCode) (r : Word) (s : State) : (fail c r s).mem = s.mem := rfl
@[simp] theorem fail_lent (c : ErrCode) (r : Word) (s : State) : (fail c r s).lent = s.lent := rfl
@[simp] theorem fail_inputs (c : ErrCode) (r : Word) (s : State) : (fail c r s).inputs = s.inputs := rfl
@[simp] theorem fail_tx (c : ErrCode) (r : Word) (s : State) : (fail c r s).tx = s.tx := rfl
@[simp] theorem fail_readData (c : ErrCode) (r : Word) (s : State) : (fail c r s).readData = s.readData := rfl

/-! ### transmit -/

@[simp] theorem transmit_cfg (d : Word) (b : List Byte) (s : State) : (transmit d b s).cfg = s.cfg := rfl
@[simp] theorem transmit_arg0 (d : Word) (b : List Byte) (s : State) : (transmit d b s).arg0 = s.arg0 := rfl
@[simp] theorem transmit_arg1 (d : Word) (b : List Byte) (s : State) : (transmit d b s).arg1 = s.arg1 := rfl
@[simp] theorem transmit_result (d : Word) (b : List Byte) (s : State) : (transmit d b s).result = s.result := rfl
@[simp] theorem transmit_irqEn (d : Word) (b : List Byte) (s : State) : (transmit d b s).irqEn = s.irqEn := rfl
@[simp] theorem transmit_status (d : Word) (b : List Byte) (s : State) : (transmit d b s).status = s.status := rfl
@[simp] theorem transmit_conn (d : Word) (b : List Byte) (s : State) : (transmit d b s).conn = s.conn := rfl
@[simp] theorem transmit_count (d : Word) (b : List Byte) (s : State) : (transmit d b s).count = s.count := rfl
@[simp] theorem transmit_prog (d : Word) (b : List Byte) (s : State) : (transmit d b s).prog = s.prog := rfl
@[simp] theorem transmit_cmd (d : Word) (b : List Byte) (s : State) : (transmit d b s).cmd = s.cmd := rfl
@[simp] theorem transmit_snd (d : Word) (b : List Byte) (s : State) : (transmit d b s).snd = s.snd := rfl
@[simp] theorem transmit_rcv (d : Word) (b : List Byte) (s : State) : (transmit d b s).rcv = s.rcv := rfl
@[simp] theorem transmit_consecTo (d : Word) (b : List Byte) (s : State) : (transmit d b s).consecTo = s.consecTo := rfl
@[simp] theorem transmit_recvBuffer (d : Word) (b : List Byte) (s : State) : (transmit d b s).recvBuffer = s.recvBuffer := rfl
@[simp] theorem transmit_mem (d : Word) (b : List Byte) (s : State) : (transmit d b s).mem = s.mem := rfl
@[simp] theorem transmit_lent (d : Word) (b : List Byte) (s : State) : (transmit d b s).lent = s.lent := rfl
@[simp] theorem transmit_inputs (d : Word) (b : List Byte) (s : State) : (transmit d b s).inputs = s.inputs := rfl
@[simp] theorem transmit_tx (d : Word) (b : List Byte) (s : State) : (transmit d b s).tx = s.tx ++ [⟨d, b⟩] := rfl
@[simp] theorem transmit_readData (d : Word) (b : List Byte) (s : State) : (transmit d b s).readData = s.readData := rfl

/-! ### transmitCtl -/

@[simp] theorem transmitCtl_cfg (c : Half) (s : State) : (transmitCtl c s).cfg = s.cfg := rfl
@[simp] theorem transmitCtl_arg0 (c : Half) (s : State) : (transmitCtl c s).arg0 = s.arg0 := rfl
@[simp] theorem transmitCtl_arg1 (c : Half) (s : State) : (transmitCtl c s).arg1 = s.arg1 := rfl
@[simp] theorem transmitCtl_result (c : Half) (s : State) : (transmitCtl c s).result = s.result := rfl
@[simp] theorem transmitCtl_irqEn (c : Half) (s : State) : (transmitCtl c s).irqEn = s.irqEn := rfl
@[simp] theorem transmitCtl_status (c : Half) (s : State) : (transmitCtl c s).status = s.status := rfl
@[simp] theorem transmitCtl_conn (c : Half) (s : State) : (transmitCtl c s).conn = s.conn := rfl
@[simp] theorem transmitCtl_count (c : Half) (s : State) : (transmitCtl c s).count = s.count := rfl
@[simp] theorem transmitCtl_prog (c : Half) (s : State) : (transmitCtl c s).prog = s.prog := rfl
@[simp] theorem transmitCtl_cmd (c : Half) (s : State) : (transmitCtl c s).cmd = s.cmd := rfl
@[simp] theorem transmitCtl_snd (c : Half) (s : State) : (transmitCtl c s).snd = s.snd := rfl
@[simp] theorem transmitCtl_rcv (c : Half) (s : State) : (transmitCtl c s).rcv = s.rcv := rfl
@[simp] theorem transmitCtl_consecTo (c : Half) (s : State) : (transmitCtl c s).consecTo = s.consecTo := rfl
@[simp] theorem transmitCtl_recvBuffer (c : Half) (s : State) : (transmitCtl c s).recvBuffer = s.recvBuffer := rfl
@[simp] theorem transmitCtl_mem (c : Half) (s : State) : (transmitCtl c s).mem = s.mem := rfl
@[simp] theorem transmitCtl_lent (c : Half) (s : State) : (transmitCtl c s).lent = s.lent := rfl
@[simp] theorem transmitCtl_inputs (c : Half) (s : State) : (transmitCtl c s).inputs = s.inputs := rfl
@[simp] theorem transmitCtl_tx (c : Half) (s : State) : (transmitCtl c s).tx = s.tx ++ [⟨s.conn.peerAddr, buildHeader c s⟩] := rfl
@[simp] theorem transmitCtl_readData (c : Half) (s : State) : (transmitCtl c s).readData = s.readData := rfl

/-! ### logCsum -/

@[simp] theorem logCsum_cfg (s : State) : (logCsum s).cfg = s.cfg := rfl
@[simp] theorem logCsum_arg0 (s : State) : (logCsum s).arg0 = s.arg0 := rfl
@[simp] theorem logCsum_arg1 (s : State) : (logCsum s).arg1 = s.arg1 := rfl
@[simp] theorem logCsum_result (s : State) : (logCsum s).result = s.result := rfl
@[simp] theorem logCsum_irqEn (s : State) : (logCsum s).irqEn = s.irqEn := rfl
@[simp] theorem logCsum_status_done (s : State) : (logCsum s).status.done = s.status.done := rfl
@[simp] theorem logCsum_status_err (s : State) : (logCsum s).status.err = s.status.err := rfl
@[simp] theorem logCsum_status_cmdOverrun (s : State) : (logCsum s).status.cmdOverrun = s.status.cmdOverrun := rfl
@[simp] theorem logCsum_status_errCode (s : State) : (logCsum s).status.errCode = s.status.errCode := rfl
@[simp] theorem logCsum_status_connState (s : State) : (logCsum s).status.connState = s.status.connState := rfl
@[simp] theorem logCsum_status_role (s : State) : (logCsum s).status.role = s.status.role := rfl
@[simp] theorem logCsum_status_finSeen (s : State) : (logCsum s).status.finSeen = s.status.finSeen := rfl
@[simp] theorem logCsum_status_csumLog (s : State) : (logCsum s).status.csumLog = true := rfl
@[simp] theorem logCsum_status_protoLog (s : State) : (logCsum s).status.protoLog = s.status.protoLog := rfl
@[simp] theorem logCsum_status_rxbufValid (s : State) : (logCsum s).status.rxbufValid = s.status.rxbufValid := rfl
@[simp] theorem logCsum_status_phase (s : State) : (logCsum s).status.phase = s.status.phase := rfl
@[simp] theorem logCsum_status_rxTotalValid (s : State) : (logCsum s).status.rxTotalValid = s.status.rxTotalValid := rfl
@[simp] theorem logCsum_conn (s : State) : (logCsum s).conn = s.conn := rfl
@[simp] theorem logCsum_count (s : State) : (logCsum s).count = s.count := rfl
@[simp] theorem logCsum_prog (s : State) : (logCsum s).prog = s.prog := rfl
@[simp] theorem logCsum_cmd (s : State) : (logCsum s).cmd = s.cmd := rfl
@[simp] theorem logCsum_snd (s : State) : (logCsum s).snd = s.snd := rfl
@[simp] theorem logCsum_rcv (s : State) : (logCsum s).rcv = s.rcv := rfl
@[simp] theorem logCsum_consecTo (s : State) : (logCsum s).consecTo = s.consecTo := rfl
@[simp] theorem logCsum_recvBuffer (s : State) : (logCsum s).recvBuffer = s.recvBuffer := rfl
@[simp] theorem logCsum_mem (s : State) : (logCsum s).mem = s.mem := rfl
@[simp] theorem logCsum_lent (s : State) : (logCsum s).lent = s.lent := rfl
@[simp] theorem logCsum_inputs (s : State) : (logCsum s).inputs = s.inputs := rfl
@[simp] theorem logCsum_tx (s : State) : (logCsum s).tx = s.tx := rfl
@[simp] theorem logCsum_readData (s : State) : (logCsum s).readData = s.readData := rfl

/-! ### logProto -/

@[simp] theorem logProto_cfg (s : State) : (logProto s).cfg = s.cfg := rfl
@[simp] theorem logProto_arg0 (s : State) : (logProto s).arg0 = s.arg0 := rfl
@[simp] theorem logProto_arg1 (s : State) : (logProto s).arg1 = s.arg1 := rfl
@[simp] theorem logProto_result (s : State) : (logProto s).result = s.result := rfl
@[simp] theorem logProto_irqEn (s : State) : (logProto s).irqEn = s.irqEn := rfl
@[simp] theorem logProto_status_done (s : State) : (logProto s).status.done = s.status.done := rfl
@[simp] theorem logProto_status_err (s : State) : (logProto s).status.err = s.status.err := rfl
@[simp] theorem logProto_status_cmdOverrun (s : State) : (logProto s).status.cmdOverrun = s.status.cmdOverrun := rfl
@[simp] theorem logProto_status_errCode (s : State) : (logProto s).status.errCode = s.status.errCode := rfl
@[simp] theorem logProto_status_connState (s : State) : (logProto s).status.connState = s.status.connState := rfl
@[simp] theorem logProto_status_role (s : State) : (logProto s).status.role = s.status.role := rfl
@[simp] theorem logProto_status_finSeen (s : State) : (logProto s).status.finSeen = s.status.finSeen := rfl
@[simp] theorem logProto_status_csumLog (s : State) : (logProto s).status.csumLog = s.status.csumLog := rfl
@[simp] theorem logProto_status_protoLog (s : State) : (logProto s).status.protoLog = true := rfl
@[simp] theorem logProto_status_rxbufValid (s : State) : (logProto s).status.rxbufValid = s.status.rxbufValid := rfl
@[simp] theorem logProto_status_phase (s : State) : (logProto s).status.phase = s.status.phase := rfl
@[simp] theorem logProto_status_rxTotalValid (s : State) : (logProto s).status.rxTotalValid = s.status.rxTotalValid := rfl
@[simp] theorem logProto_conn (s : State) : (logProto s).conn = s.conn := rfl
@[simp] theorem logProto_count (s : State) : (logProto s).count = s.count := rfl
@[simp] theorem logProto_prog (s : State) : (logProto s).prog = s.prog := rfl
@[simp] theorem logProto_cmd (s : State) : (logProto s).cmd = s.cmd := rfl
@[simp] theorem logProto_snd (s : State) : (logProto s).snd = s.snd := rfl
@[simp] theorem logProto_rcv (s : State) : (logProto s).rcv = s.rcv := rfl
@[simp] theorem logProto_consecTo (s : State) : (logProto s).consecTo = s.consecTo := rfl
@[simp] theorem logProto_recvBuffer (s : State) : (logProto s).recvBuffer = s.recvBuffer := rfl
@[simp] theorem logProto_mem (s : State) : (logProto s).mem = s.mem := rfl
@[simp] theorem logProto_lent (s : State) : (logProto s).lent = s.lent := rfl
@[simp] theorem logProto_inputs (s : State) : (logProto s).inputs = s.inputs := rfl
@[simp] theorem logProto_tx (s : State) : (logProto s).tx = s.tx := rfl
@[simp] theorem logProto_readData (s : State) : (logProto s).readData = s.readData := rfl

/-! ### logCsumUnless -/

@[simp] theorem logCsumUnless_cfg (v : Bool) (s : State) : (logCsumUnless v s).cfg = s.cfg := by cases v <;> rfl
@[simp] theorem logCsumUnless_arg0 (v : Bool) (s : State) : (logCsumUnless v s).arg0 = s.arg0 := by cases v <;> rfl
@[simp] theorem logCsumUnless_arg1 (v : Bool) (s : State) : (logCsumUnless v s).arg1 = s.arg1 := by cases v <;> rfl
@[simp] theorem logCsumUnless_result (v : Bool) (s : State) : (logCsumUnless v s).result = s.result := by cases v <;> rfl
@[simp] theorem logCsumUnless_irqEn (v : Bool) (s : State) : (logCsumUnless v s).irqEn = s.irqEn := by cases v <;> rfl
@[simp] theorem logCsumUnless_status_done (v : Bool) (s : State) : (logCsumUnless v s).status.done = s.status.done := by cases v <;> rfl
@[simp] theorem logCsumUnless_status_err (v : Bool) (s : State) : (logCsumUnless v s).status.err = s.status.err := by cases v <;> rfl
@[simp] theorem logCsumUnless_status_cmdOverrun (v : Bool) (s : State) : (logCsumUnless v s).status.cmdOverrun = s.status.cmdOverrun := by cases v <;> rfl
@[simp] theorem logCsumUnless_status_errCode (v : Bool) (s : State) : (logCsumUnless v s).status.errCode = s.status.errCode := by cases v <;> rfl
@[simp] theorem logCsumUnless_status_connState (v : Bool) (s : State) : (logCsumUnless v s).status.connState = s.status.connState := by cases v <;> rfl
@[simp] theorem logCsumUnless_status_role (v : Bool) (s : State) : (logCsumUnless v s).status.role = s.status.role := by cases v <;> rfl
@[simp] theorem logCsumUnless_status_finSeen (v : Bool) (s : State) : (logCsumUnless v s).status.finSeen = s.status.finSeen := by cases v <;> rfl
@[simp] theorem logCsumUnless_status_csumLog (v : Bool) (s : State) : (logCsumUnless v s).status.csumLog = (s.status.csumLog || !v) := by cases v <;> simp [logCsumUnless, logCsum]
@[simp] theorem logCsumUnless_status_protoLog (v : Bool) (s : State) : (logCsumUnless v s).status.protoLog = s.status.protoLog := by cases v <;> rfl
@[simp] theorem logCsumUnless_status_rxbufValid (v : Bool) (s : State) : (logCsumUnless v s).status.rxbufValid = s.status.rxbufValid := by cases v <;> rfl
@[simp] theorem logCsumUnless_status_phase (v : Bool) (s : State) : (logCsumUnless v s).status.phase = s.status.phase := by cases v <;> rfl
@[simp] theorem logCsumUnless_status_rxTotalValid (v : Bool) (s : State) : (logCsumUnless v s).status.rxTotalValid = s.status.rxTotalValid := by cases v <;> rfl
@[simp] theorem logCsumUnless_conn (v : Bool) (s : State) : (logCsumUnless v s).conn = s.conn := by cases v <;> rfl
@[simp] theorem logCsumUnless_count (v : Bool) (s : State) : (logCsumUnless v s).count = s.count := by cases v <;> rfl
@[simp] theorem logCsumUnless_prog (v : Bool) (s : State) : (logCsumUnless v s).prog = s.prog := by cases v <;> rfl
@[simp] theorem logCsumUnless_cmd (v : Bool) (s : State) : (logCsumUnless v s).cmd = s.cmd := by cases v <;> rfl
@[simp] theorem logCsumUnless_snd (v : Bool) (s : State) : (logCsumUnless v s).snd = s.snd := by cases v <;> rfl
@[simp] theorem logCsumUnless_rcv (v : Bool) (s : State) : (logCsumUnless v s).rcv = s.rcv := by cases v <;> rfl
@[simp] theorem logCsumUnless_consecTo (v : Bool) (s : State) : (logCsumUnless v s).consecTo = s.consecTo := by cases v <;> rfl
@[simp] theorem logCsumUnless_recvBuffer (v : Bool) (s : State) : (logCsumUnless v s).recvBuffer = s.recvBuffer := by cases v <;> rfl
@[simp] theorem logCsumUnless_mem (v : Bool) (s : State) : (logCsumUnless v s).mem = s.mem := by cases v <;> rfl
@[simp] theorem logCsumUnless_lent (v : Bool) (s : State) : (logCsumUnless v s).lent = s.lent := by cases v <;> rfl
@[simp] theorem logCsumUnless_inputs (v : Bool) (s : State) : (logCsumUnless v s).inputs = s.inputs := by cases v <;> rfl
@[simp] theorem logCsumUnless_tx (v : Bool) (s : State) : (logCsumUnless v s).tx = s.tx := by cases v <;> rfl
@[simp] theorem logCsumUnless_readData (v : Bool) (s : State) : (logCsumUnless v s).readData = s.readData := by cases v <;> rfl

/-! ### latch -/

@[simp] theorem latch_cfg (op : BitVec 8) (s : State) : (latch op s).cfg = s.cfg := rfl
@[simp] theorem latch_arg0 (op : BitVec 8) (s : State) : (latch op s).arg0 = s.arg0 := rfl
@[simp] theorem latch_arg1 (op : BitVec 8) (s : State) : (latch op s).arg1 = s.arg1 := rfl
@[simp] theorem latch_result (op : BitVec 8) (s : State) : (latch op s).result = s.result := rfl
@[simp] theorem latch_irqEn (op : BitVec 8) (s : State) : (latch op s).irqEn = s.irqEn := rfl
@[simp] theorem latch_status_done (op : BitVec 8) (s : State) : (latch op s).status.done = false := rfl
@[simp] theorem latch_status_err (op : BitVec 8) (s : State) : (latch op s).status.err = false := rfl
@[simp] theorem latch_status_cmdOverrun (op : BitVec 8) (s : State) : (latch op s).status.cmdOverrun = s.status.cmdOverrun := rfl
@[simp] theorem latch_status_errCode (op : BitVec 8) (s : State) : (latch op s).status.errCode = .none := rfl
@[simp] theorem latch_status_connState (op : BitVec 8) (s : State) : (latch op s).status.connState = s.status.connState := rfl
@[simp] theorem latch_status_role (op : BitVec 8) (s : State) : (latch op s).status.role = s.status.role := rfl
@[simp] theorem latch_status_finSeen (op : BitVec 8) (s : State) : (latch op s).status.finSeen = s.status.finSeen := rfl
@[simp] theorem latch_status_csumLog (op : BitVec 8) (s : State) : (latch op s).status.csumLog = s.status.csumLog := rfl
@[simp] theorem latch_status_protoLog (op : BitVec 8) (s : State) : (latch op s).status.protoLog = s.status.protoLog := rfl
@[simp] theorem latch_status_rxbufValid (op : BitVec 8) (s : State) : (latch op s).status.rxbufValid = s.status.rxbufValid := rfl
@[simp] theorem latch_status_phase (op : BitVec 8) (s : State) : (latch op s).status.phase = s.status.phase := rfl
@[simp] theorem latch_status_rxTotalValid (op : BitVec 8) (s : State) : (latch op s).status.rxTotalValid = s.status.rxTotalValid := rfl
@[simp] theorem latch_conn (op : BitVec 8) (s : State) : (latch op s).conn = s.conn := rfl
@[simp] theorem latch_count (op : BitVec 8) (s : State) : (latch op s).count = s.count := rfl
@[simp] theorem latch_prog (op : BitVec 8) (s : State) : (latch op s).prog = s.prog := rfl
@[simp] theorem latch_cmd (op : BitVec 8) (s : State) : (latch op s).cmd = ⟨op, s.arg0, s.arg1, s.cmd.finalResult⟩ := rfl
@[simp] theorem latch_snd (op : BitVec 8) (s : State) : (latch op s).snd = s.snd := rfl
@[simp] theorem latch_rcv (op : BitVec 8) (s : State) : (latch op s).rcv = s.rcv := rfl
@[simp] theorem latch_consecTo (op : BitVec 8) (s : State) : (latch op s).consecTo = s.consecTo := rfl
@[simp] theorem latch_recvBuffer (op : BitVec 8) (s : State) : (latch op s).recvBuffer = s.recvBuffer := rfl
@[simp] theorem latch_mem (op : BitVec 8) (s : State) : (latch op s).mem = s.mem := rfl
@[simp] theorem latch_lent (op : BitVec 8) (s : State) : (latch op s).lent = s.lent := rfl
@[simp] theorem latch_inputs (op : BitVec 8) (s : State) : (latch op s).inputs = s.inputs := rfl
@[simp] theorem latch_tx (op : BitVec 8) (s : State) : (latch op s).tx = s.tx := rfl
@[simp] theorem latch_readData (op : BitVec 8) (s : State) : (latch op s).readData = s.readData := rfl

/-! ### writeStatus -/

@[simp] theorem writeStatus_cfg (v : Word) (s : State) : (writeStatus v s).cfg = s.cfg := rfl
@[simp] theorem writeStatus_arg0 (v : Word) (s : State) : (writeStatus v s).arg0 = s.arg0 := rfl
@[simp] theorem writeStatus_arg1 (v : Word) (s : State) : (writeStatus v s).arg1 = s.arg1 := rfl
@[simp] theorem writeStatus_result (v : Word) (s : State) : (writeStatus v s).result = s.result := rfl
@[simp] theorem writeStatus_irqEn (v : Word) (s : State) : (writeStatus v s).irqEn = s.irqEn := rfl
@[simp] theorem writeStatus_status_done (v : Word) (s : State) : (writeStatus v s).status.done = (s.status.done && !v.getLsbD 1) := rfl
@[simp] theorem writeStatus_status_err (v : Word) (s : State) : (writeStatus v s).status.err = (s.status.err && !v.getLsbD 2) := rfl
@[simp] theorem writeStatus_status_cmdOverrun (v : Word) (s : State) : (writeStatus v s).status.cmdOverrun = (s.status.cmdOverrun && !v.getLsbD 3) := rfl
@[simp] theorem writeStatus_status_errCode (v : Word) (s : State) : (writeStatus v s).status.errCode = s.status.errCode := rfl
@[simp] theorem writeStatus_status_connState (v : Word) (s : State) : (writeStatus v s).status.connState = s.status.connState := rfl
@[simp] theorem writeStatus_status_role (v : Word) (s : State) : (writeStatus v s).status.role = s.status.role := rfl
@[simp] theorem writeStatus_status_finSeen (v : Word) (s : State) : (writeStatus v s).status.finSeen = s.status.finSeen := rfl
@[simp] theorem writeStatus_status_csumLog (v : Word) (s : State) : (writeStatus v s).status.csumLog = (s.status.csumLog && !v.getLsbD 13) := rfl
@[simp] theorem writeStatus_status_protoLog (v : Word) (s : State) : (writeStatus v s).status.protoLog = (s.status.protoLog && !v.getLsbD 14) := rfl
@[simp] theorem writeStatus_status_rxbufValid (v : Word) (s : State) : (writeStatus v s).status.rxbufValid = s.status.rxbufValid := rfl
@[simp] theorem writeStatus_status_phase (v : Word) (s : State) : (writeStatus v s).status.phase = s.status.phase := rfl
@[simp] theorem writeStatus_status_rxTotalValid (v : Word) (s : State) : (writeStatus v s).status.rxTotalValid = s.status.rxTotalValid := rfl
@[simp] theorem writeStatus_conn (v : Word) (s : State) : (writeStatus v s).conn = s.conn := rfl
@[simp] theorem writeStatus_count (v : Word) (s : State) : (writeStatus v s).count = s.count := rfl
@[simp] theorem writeStatus_prog (v : Word) (s : State) : (writeStatus v s).prog = s.prog := rfl
@[simp] theorem writeStatus_cmd (v : Word) (s : State) : (writeStatus v s).cmd = s.cmd := rfl
@[simp] theorem writeStatus_snd (v : Word) (s : State) : (writeStatus v s).snd = s.snd := rfl
@[simp] theorem writeStatus_rcv (v : Word) (s : State) : (writeStatus v s).rcv = s.rcv := rfl
@[simp] theorem writeStatus_consecTo (v : Word) (s : State) : (writeStatus v s).consecTo = s.consecTo := rfl
@[simp] theorem writeStatus_recvBuffer (v : Word) (s : State) : (writeStatus v s).recvBuffer = s.recvBuffer := rfl
@[simp] theorem writeStatus_mem (v : Word) (s : State) : (writeStatus v s).mem = s.mem := rfl
@[simp] theorem writeStatus_lent (v : Word) (s : State) : (writeStatus v s).lent = s.lent := rfl
@[simp] theorem writeStatus_inputs (v : Word) (s : State) : (writeStatus v s).inputs = s.inputs := rfl
@[simp] theorem writeStatus_tx (v : Word) (s : State) : (writeStatus v s).tx = s.tx := rfl
@[simp] theorem writeStatus_readData (v : Word) (s : State) : (writeStatus v s).readData = s.readData := rfl

/-! ### countTimeout -/

@[simp] theorem countTimeout_cfg (s : State) : (countTimeout s).cfg = s.cfg := rfl
@[simp] theorem countTimeout_arg0 (s : State) : (countTimeout s).arg0 = s.arg0 := rfl
@[simp] theorem countTimeout_arg1 (s : State) : (countTimeout s).arg1 = s.arg1 := rfl
@[simp] theorem countTimeout_result (s : State) : (countTimeout s).result = s.result := rfl
@[simp] theorem countTimeout_irqEn (s : State) : (countTimeout s).irqEn = s.irqEn := rfl
@[simp] theorem countTimeout_status (s : State) : (countTimeout s).status = s.status := rfl
@[simp] theorem countTimeout_conn (s : State) : (countTimeout s).conn = s.conn := rfl
@[simp] theorem countTimeout_count (s : State) : (countTimeout s).count = ⟨s.count.txDup, s.count.rxDup, s.count.timeout + 1, s.count.halve⟩ := rfl
@[simp] theorem countTimeout_prog (s : State) : (countTimeout s).prog = s.prog := rfl
@[simp] theorem countTimeout_cmd (s : State) : (countTimeout s).cmd = s.cmd := rfl
@[simp] theorem countTimeout_snd (s : State) : (countTimeout s).snd = s.snd := rfl
@[simp] theorem countTimeout_rcv (s : State) : (countTimeout s).rcv = s.rcv := rfl
@[simp] theorem countTimeout_consecTo (s : State) : (countTimeout s).consecTo = satAdd32 s.consecTo 1 := rfl
@[simp] theorem countTimeout_recvBuffer (s : State) : (countTimeout s).recvBuffer = s.recvBuffer := rfl
@[simp] theorem countTimeout_mem (s : State) : (countTimeout s).mem = s.mem := rfl
@[simp] theorem countTimeout_lent (s : State) : (countTimeout s).lent = s.lent := rfl
@[simp] theorem countTimeout_inputs (s : State) : (countTimeout s).inputs = s.inputs := rfl
@[simp] theorem countTimeout_tx (s : State) : (countTimeout s).tx = s.tx := rfl
@[simp] theorem countTimeout_readData (s : State) : (countTimeout s).readData = s.readData := rfl

/-! ### countDup -/

@[simp] theorem countDup_cfg (s : State) : (countDup s).cfg = s.cfg := rfl
@[simp] theorem countDup_arg0 (s : State) : (countDup s).arg0 = s.arg0 := rfl
@[simp] theorem countDup_arg1 (s : State) : (countDup s).arg1 = s.arg1 := rfl
@[simp] theorem countDup_result (s : State) : (countDup s).result = s.result := rfl
@[simp] theorem countDup_irqEn (s : State) : (countDup s).irqEn = s.irqEn := rfl
@[simp] theorem countDup_status (s : State) : (countDup s).status = s.status := rfl
@[simp] theorem countDup_conn (s : State) : (countDup s).conn = s.conn := rfl
@[simp] theorem countDup_count (s : State) : (countDup s).count = ⟨s.count.txDup + 1, s.count.rxDup, s.count.timeout, s.count.halve⟩ := rfl
@[simp] theorem countDup_prog (s : State) : (countDup s).prog = s.prog := rfl
@[simp] theorem countDup_cmd (s : State) : (countDup s).cmd = s.cmd := rfl
@[simp] theorem countDup_rcv (s : State) : (countDup s).rcv = s.rcv := rfl
@[simp] theorem countDup_consecTo (s : State) : (countDup s).consecTo = s.consecTo := rfl
@[simp] theorem countDup_recvBuffer (s : State) : (countDup s).recvBuffer = s.recvBuffer := rfl
@[simp] theorem countDup_mem (s : State) : (countDup s).mem = s.mem := rfl
@[simp] theorem countDup_lent (s : State) : (countDup s).lent = s.lent := rfl
@[simp] theorem countDup_inputs (s : State) : (countDup s).inputs = s.inputs := rfl
@[simp] theorem countDup_tx (s : State) : (countDup s).tx = s.tx := rfl
@[simp] theorem countDup_readData (s : State) : (countDup s).readData = s.readData := rfl

/-! ### openReset -/

@[simp] theorem openReset_cfg (s : State) : (openReset s).cfg = s.cfg := rfl
@[simp] theorem openReset_arg0 (s : State) : (openReset s).arg0 = s.arg0 := rfl
@[simp] theorem openReset_arg1 (s : State) : (openReset s).arg1 = s.arg1 := rfl
@[simp] theorem openReset_irqEn (s : State) : (openReset s).irqEn = s.irqEn := rfl
@[simp] theorem openReset_recvBuffer (s : State) : (openReset s).recvBuffer = s.recvBuffer := rfl
@[simp] theorem openReset_mem (s : State) : (openReset s).mem = s.mem := rfl
@[simp] theorem openReset_lent (s : State) : (openReset s).lent = s.lent := rfl
@[simp] theorem openReset_inputs (s : State) : (openReset s).inputs = s.inputs := rfl
@[simp] theorem openReset_tx (s : State) : (openReset s).tx = s.tx := rfl
@[simp] theorem openReset_readData (s : State) : (openReset s).readData = s.readData := rfl

/-! ### hardwareReset -/

@[simp] theorem hardwareReset_cfg (s : State) : (hardwareReset s).cfg = s.cfg := rfl
@[simp] theorem hardwareReset_mem (s : State) : (hardwareReset s).mem = s.mem := rfl
@[simp] theorem hardwareReset_lent (s : State) : (hardwareReset s).lent = s.lent := rfl
@[simp] theorem hardwareReset_inputs (s : State) : (hardwareReset s).inputs = s.inputs := rfl
@[simp] theorem hardwareReset_tx (s : State) : (hardwareReset s).tx = s.tx := rfl

/-! ### beginRound -/

@[simp] theorem beginRound_cfg (d r : Nat) (s : State) : (beginRound d r s).cfg = s.cfg := rfl
@[simp] theorem beginRound_arg0 (d r : Nat) (s : State) : (beginRound d r s).arg0 = s.arg0 := rfl
@[simp] theorem beginRound_arg1 (d r : Nat) (s : State) : (beginRound d r s).arg1 = s.arg1 := rfl
@[simp] theorem beginRound_result (d r : Nat) (s : State) : (beginRound d r s).result = s.result := rfl
@[simp] theorem beginRound_irqEn (d r : Nat) (s : State) : (beginRound d r s).irqEn = s.irqEn := rfl
@[simp] theorem beginRound_status_done (d r : Nat) (s : State) : (beginRound d r s).status.done = s.status.done := rfl
@[simp] theorem beginRound_status_err (d r : Nat) (s : State) : (beginRound d r s).status.err = s.status.err := rfl
@[simp] theorem beginRound_status_cmdOverrun (d r : Nat) (s : State) : (beginRound d r s).status.cmdOverrun = s.status.cmdOverrun := rfl
@[simp] theorem beginRound_status_errCode (d r : Nat) (s : State) : (beginRound d r s).status.errCode = s.status.errCode := rfl
@[simp] theorem beginRound_status_connState (d r : Nat) (s : State) : (beginRound d r s).status.connState = s.status.connState := rfl
@[simp] theorem beginRound_status_role (d r : Nat) (s : State) : (beginRound d r s).status.role = s.status.role := rfl
@[simp] theorem beginRound_status_finSeen (d r : Nat) (s : State) : (beginRound d r s).status.finSeen = s.status.finSeen := rfl
@[simp] theorem beginRound_status_csumLog (d r : Nat) (s : State) : (beginRound d r s).status.csumLog = s.status.csumLog := rfl
@[simp] theorem beginRound_status_protoLog (d r : Nat) (s : State) : (beginRound d r s).status.protoLog = s.status.protoLog := rfl
@[simp] theorem beginRound_status_rxbufValid (d r : Nat) (s : State) : (beginRound d r s).status.rxbufValid = s.status.rxbufValid := rfl
@[simp] theorem beginRound_status_phase (d r : Nat) (s : State) : (beginRound d r s).status.phase = .sndWaitAck := rfl
@[simp] theorem beginRound_status_rxTotalValid (d r : Nat) (s : State) : (beginRound d r s).status.rxTotalValid = s.status.rxTotalValid := rfl
@[simp] theorem beginRound_conn (d r : Nat) (s : State) : (beginRound d r s).conn = s.conn := rfl
@[simp] theorem beginRound_count (d r : Nat) (s : State) : (beginRound d r s).count = s.count := rfl
@[simp] theorem beginRound_cmd (d r : Nat) (s : State) : (beginRound d r s).cmd = s.cmd := rfl
@[simp] theorem beginRound_rcv (d r : Nat) (s : State) : (beginRound d r s).rcv = s.rcv := rfl
@[simp] theorem beginRound_consecTo (d r : Nat) (s : State) : (beginRound d r s).consecTo = s.consecTo := rfl
@[simp] theorem beginRound_recvBuffer (d r : Nat) (s : State) : (beginRound d r s).recvBuffer = s.recvBuffer := rfl
@[simp] theorem beginRound_mem (d r : Nat) (s : State) : (beginRound d r s).mem = s.mem := rfl
@[simp] theorem beginRound_lent (d r : Nat) (s : State) : (beginRound d r s).lent = s.lent := rfl
@[simp] theorem beginRound_inputs (d r : Nat) (s : State) : (beginRound d r s).inputs = s.inputs := rfl
@[simp] theorem beginRound_tx (d r : Nat) (s : State) : (beginRound d r s).tx = s.tx := rfl
@[simp] theorem beginRound_readData (d r : Nat) (s : State) : (beginRound d r s).readData = s.readData := rfl

/-! ### collapse -/

@[simp] theorem collapse_cfg (s : State) : (collapse s).cfg = s.cfg := rfl
@[simp] theorem collapse_arg0 (s : State) : (collapse s).arg0 = s.arg0 := rfl
@[simp] theorem collapse_arg1 (s : State) : (collapse s).arg1 = s.arg1 := rfl
@[simp] theorem collapse_result (s : State) : (collapse s).result = s.result := rfl
@[simp] theorem collapse_irqEn (s : State) : (collapse s).irqEn = s.irqEn := rfl
@[simp] theorem collapse_status (s : State) : (collapse s).status = s.status := rfl
@[simp] theorem collapse_count (s : State) : (collapse s).count = s.count := rfl
@[simp] theorem collapse_prog (s : State) : (collapse s).prog = s.prog := rfl
@[simp] theorem collapse_cmd (s : State) : (collapse s).cmd = s.cmd := rfl
@[simp] theorem collapse_snd (s : State) : (collapse s).snd = s.snd := rfl
@[simp] theorem collapse_rcv (s : State) : (collapse s).rcv = s.rcv := rfl
@[simp] theorem collapse_consecTo (s : State) : (collapse s).consecTo = s.consecTo := rfl
@[simp] theorem collapse_recvBuffer (s : State) : (collapse s).recvBuffer = s.recvBuffer := rfl
@[simp] theorem collapse_mem (s : State) : (collapse s).mem = s.mem := rfl
@[simp] theorem collapse_lent (s : State) : (collapse s).lent = s.lent := rfl
@[simp] theorem collapse_inputs (s : State) : (collapse s).inputs = s.inputs := rfl
@[simp] theorem collapse_tx (s : State) : (collapse s).tx = s.tx := rfl
@[simp] theorem collapse_readData (s : State) : (collapse s).readData = s.readData := rfl

/-! ### halveIfDup -/

@[simp] theorem halveIfDup_cfg (s : State) : (halveIfDup s).cfg = s.cfg := by unfold halveIfDup; split <;> rfl
@[simp] theorem halveIfDup_arg0 (s : State) : (halveIfDup s).arg0 = s.arg0 := by unfold halveIfDup; split <;> rfl
@[simp] theorem halveIfDup_arg1 (s : State) : (halveIfDup s).arg1 = s.arg1 := by unfold halveIfDup; split <;> rfl
@[simp] theorem halveIfDup_result (s : State) : (halveIfDup s).result = s.result := by unfold halveIfDup; split <;> rfl
@[simp] theorem halveIfDup_irqEn (s : State) : (halveIfDup s).irqEn = s.irqEn := by unfold halveIfDup; split <;> rfl
@[simp] theorem halveIfDup_status (s : State) : (halveIfDup s).status = s.status := by unfold halveIfDup; split <;> rfl
@[simp] theorem halveIfDup_prog (s : State) : (halveIfDup s).prog = s.prog := by unfold halveIfDup; split <;> rfl
@[simp] theorem halveIfDup_cmd (s : State) : (halveIfDup s).cmd = s.cmd := by unfold halveIfDup; split <;> rfl
@[simp] theorem halveIfDup_snd (s : State) : (halveIfDup s).snd = s.snd := by unfold halveIfDup; split <;> rfl
@[simp] theorem halveIfDup_rcv (s : State) : (halveIfDup s).rcv = s.rcv := by unfold halveIfDup; split <;> rfl
@[simp] theorem halveIfDup_consecTo (s : State) : (halveIfDup s).consecTo = s.consecTo := by unfold halveIfDup; split <;> rfl
@[simp] theorem halveIfDup_recvBuffer (s : State) : (halveIfDup s).recvBuffer = s.recvBuffer := by unfold halveIfDup; split <;> rfl
@[simp] theorem halveIfDup_mem (s : State) : (halveIfDup s).mem = s.mem := by unfold halveIfDup; split <;> rfl
@[simp] theorem halveIfDup_lent (s : State) : (halveIfDup s).lent = s.lent := by unfold halveIfDup; split <;> rfl
@[simp] theorem halveIfDup_inputs (s : State) : (halveIfDup s).inputs = s.inputs := by unfold halveIfDup; split <;> rfl
@[simp] theorem halveIfDup_tx (s : State) : (halveIfDup s).tx = s.tx := by unfold halveIfDup; split <;> rfl
@[simp] theorem halveIfDup_readData (s : State) : (halveIfDup s).readData = s.readData := by unfold halveIfDup; split <;> rfl

/-! ### confirmRecorded -/

@[simp] theorem confirmRecorded_cfg (s : State) : (confirmRecorded s).cfg = s.cfg := by unfold confirmRecorded; split <;> rfl
@[simp] theorem confirmRecorded_arg0 (s : State) : (confirmRecorded s).arg0 = s.arg0 := by unfold confirmRecorded; split <;> rfl
@[simp] theorem confirmRecorded_arg1 (s : State) : (confirmRecorded s).arg1 = s.arg1 := by unfold confirmRecorded; split <;> rfl
@[simp] theorem confirmRecorded_result (s : State) : (confirmRecorded s).result = s.result := by unfold confirmRecorded; split <;> rfl
@[simp] theorem confirmRecorded_irqEn (s : State) : (confirmRecorded s).irqEn = s.irqEn := by unfold confirmRecorded; split <;> rfl
@[simp] theorem confirmRecorded_status (s : State) : (confirmRecorded s).status = s.status := by unfold confirmRecorded; split <;> rfl
@[simp] theorem confirmRecorded_count (s : State) : (confirmRecorded s).count = s.count := by unfold confirmRecorded; split <;> rfl
@[simp] theorem confirmRecorded_prog (s : State) : (confirmRecorded s).prog = s.prog := by unfold confirmRecorded; split <;> rfl
@[simp] theorem confirmRecorded_cmd (s : State) : (confirmRecorded s).cmd = s.cmd := by unfold confirmRecorded; split <;> rfl
@[simp] theorem confirmRecorded_snd (s : State) : (confirmRecorded s).snd = s.snd := by unfold confirmRecorded; split <;> rfl
@[simp] theorem confirmRecorded_rcv (s : State) : (confirmRecorded s).rcv = s.rcv := by unfold confirmRecorded; split <;> rfl
@[simp] theorem confirmRecorded_consecTo (s : State) : (confirmRecorded s).consecTo = s.consecTo := by unfold confirmRecorded; split <;> rfl
@[simp] theorem confirmRecorded_recvBuffer (s : State) : (confirmRecorded s).recvBuffer = s.recvBuffer := by unfold confirmRecorded; split <;> rfl
@[simp] theorem confirmRecorded_mem (s : State) : (confirmRecorded s).mem = s.mem := by unfold confirmRecorded; split <;> rfl
@[simp] theorem confirmRecorded_lent (s : State) : (confirmRecorded s).lent = s.lent := by unfold confirmRecorded; split <;> rfl
@[simp] theorem confirmRecorded_inputs (s : State) : (confirmRecorded s).inputs = s.inputs := by unfold confirmRecorded; split <;> rfl
@[simp] theorem confirmRecorded_tx (s : State) : (confirmRecorded s).tx = s.tx := by unfold confirmRecorded; split <;> rfl
@[simp] theorem confirmRecorded_readData (s : State) : (confirmRecorded s).readData = s.readData := by unfold confirmRecorded; split <;> rfl

/-! ### growCwnd -/

@[simp] theorem growCwnd_cfg (s : State) : (growCwnd s).cfg = s.cfg := by unfold growCwnd; split <;> [rfl; split <;> rfl]
@[simp] theorem growCwnd_arg0 (s : State) : (growCwnd s).arg0 = s.arg0 := by unfold growCwnd; split <;> [rfl; split <;> rfl]
@[simp] theorem growCwnd_arg1 (s : State) : (growCwnd s).arg1 = s.arg1 := by unfold growCwnd; split <;> [rfl; split <;> rfl]
@[simp] theorem growCwnd_result (s : State) : (growCwnd s).result = s.result := by unfold growCwnd; split <;> [rfl; split <;> rfl]
@[simp] theorem growCwnd_irqEn (s : State) : (growCwnd s).irqEn = s.irqEn := by unfold growCwnd; split <;> [rfl; split <;> rfl]
@[simp] theorem growCwnd_status (s : State) : (growCwnd s).status = s.status := by unfold growCwnd; split <;> [rfl; split <;> rfl]
@[simp] theorem growCwnd_count (s : State) : (growCwnd s).count = s.count := by unfold growCwnd; split <;> [rfl; split <;> rfl]
@[simp] theorem growCwnd_prog (s : State) : (growCwnd s).prog = s.prog := by unfold growCwnd; split <;> [rfl; split <;> rfl]
@[simp] theorem growCwnd_cmd (s : State) : (growCwnd s).cmd = s.cmd := by unfold growCwnd; split <;> [rfl; split <;> rfl]
@[simp] theorem growCwnd_rcv (s : State) : (growCwnd s).rcv = s.rcv := by unfold growCwnd; split <;> [rfl; split <;> rfl]
@[simp] theorem growCwnd_consecTo (s : State) : (growCwnd s).consecTo = s.consecTo := by unfold growCwnd; split <;> [rfl; split <;> rfl]
@[simp] theorem growCwnd_recvBuffer (s : State) : (growCwnd s).recvBuffer = s.recvBuffer := by unfold growCwnd; split <;> [rfl; split <;> rfl]
@[simp] theorem growCwnd_mem (s : State) : (growCwnd s).mem = s.mem := by unfold growCwnd; split <;> [rfl; split <;> rfl]
@[simp] theorem growCwnd_lent (s : State) : (growCwnd s).lent = s.lent := by unfold growCwnd; split <;> [rfl; split <;> rfl]
@[simp] theorem growCwnd_inputs (s : State) : (growCwnd s).inputs = s.inputs := by unfold growCwnd; split <;> [rfl; split <;> rfl]
@[simp] theorem growCwnd_tx (s : State) : (growCwnd s).tx = s.tx := by unfold growCwnd; split <;> [rfl; split <;> rfl]
@[simp] theorem growCwnd_readData (s : State) : (growCwnd s).readData = s.readData := by unfold growCwnd; split <;> [rfl; split <;> rfl]

/-! ### ackInOrder -/

@[simp] theorem ackInOrder_cfg (s : State) : (ackInOrder s).cfg = s.cfg := by simp [ackInOrder]
@[simp] theorem ackInOrder_arg0 (s : State) : (ackInOrder s).arg0 = s.arg0 := by simp [ackInOrder]
@[simp] theorem ackInOrder_arg1 (s : State) : (ackInOrder s).arg1 = s.arg1 := by simp [ackInOrder]
@[simp] theorem ackInOrder_result (s : State) : (ackInOrder s).result = s.result := by simp [ackInOrder]
@[simp] theorem ackInOrder_irqEn (s : State) : (ackInOrder s).irqEn = s.irqEn := by simp [ackInOrder]
@[simp] theorem ackInOrder_status (s : State) : (ackInOrder s).status = s.status := by simp [ackInOrder]
@[simp] theorem ackInOrder_count (s : State) : (ackInOrder s).count = s.count := by simp [ackInOrder]
@[simp] theorem ackInOrder_prog (s : State) : (ackInOrder s).prog = s.prog := by simp [ackInOrder]
@[simp] theorem ackInOrder_cmd (s : State) : (ackInOrder s).cmd = s.cmd := by simp [ackInOrder]
@[simp] theorem ackInOrder_rcv (s : State) : (ackInOrder s).rcv = s.rcv := by simp [ackInOrder]
@[simp] theorem ackInOrder_consecTo (s : State) : (ackInOrder s).consecTo = s.consecTo := by simp [ackInOrder]
@[simp] theorem ackInOrder_recvBuffer (s : State) : (ackInOrder s).recvBuffer = s.recvBuffer := by simp [ackInOrder]
@[simp] theorem ackInOrder_mem (s : State) : (ackInOrder s).mem = s.mem := by simp [ackInOrder]
@[simp] theorem ackInOrder_lent (s : State) : (ackInOrder s).lent = s.lent := by simp [ackInOrder]
@[simp] theorem ackInOrder_inputs (s : State) : (ackInOrder s).inputs = s.inputs := by simp [ackInOrder]
@[simp] theorem ackInOrder_tx (s : State) : (ackInOrder s).tx = s.tx := by simp [ackInOrder]
@[simp] theorem ackInOrder_readData (s : State) : (ackInOrder s).readData = s.readData := by simp [ackInOrder]

/-! ### ackOutOfOrder -/

@[simp] theorem ackOutOfOrder_cfg (a : Word) (s : State) : (ackOutOfOrder a s).cfg = s.cfg := by unfold ackOutOfOrder; dsimp only; split <;> rfl
@[simp] theorem ackOutOfOrder_arg0 (a : Word) (s : State) : (ackOutOfOrder a s).arg0 = s.arg0 := by unfold ackOutOfOrder; dsimp only; split <;> rfl
@[simp] theorem ackOutOfOrder_arg1 (a : Word) (s : State) : (ackOutOfOrder a s).arg1 = s.arg1 := by unfold ackOutOfOrder; dsimp only; split <;> rfl
@[simp] theorem ackOutOfOrder_result (a : Word) (s : State) : (ackOutOfOrder a s).result = s.result := by unfold ackOutOfOrder; dsimp only; split <;> rfl
@[simp] theorem ackOutOfOrder_irqEn (a : Word) (s : State) : (ackOutOfOrder a s).irqEn = s.irqEn := by unfold ackOutOfOrder; dsimp only; split <;> rfl
@[simp] theorem ackOutOfOrder_status (a : Word) (s : State) : (ackOutOfOrder a s).status = s.status := by unfold ackOutOfOrder; dsimp only; split <;> rfl
@[simp] theorem ackOutOfOrder_conn (a : Word) (s : State) : (ackOutOfOrder a s).conn = s.conn := by unfold ackOutOfOrder; dsimp only; split <;> rfl
@[simp] theorem ackOutOfOrder_prog (a : Word) (s : State) : (ackOutOfOrder a s).prog = s.prog := by unfold ackOutOfOrder; dsimp only; split <;> rfl
@[simp] theorem ackOutOfOrder_cmd (a : Word) (s : State) : (ackOutOfOrder a s).cmd = s.cmd := by unfold ackOutOfOrder; dsimp only; split <;> rfl
@[simp] theorem ackOutOfOrder_rcv (a : Word) (s : State) : (ackOutOfOrder a s).rcv = s.rcv := by unfold ackOutOfOrder; dsimp only; split <;> rfl
@[simp] theorem ackOutOfOrder_consecTo (a : Word) (s : State) : (ackOutOfOrder a s).consecTo = s.consecTo := by unfold ackOutOfOrder; dsimp only; split <;> rfl
@[simp] theorem ackOutOfOrder_recvBuffer (a : Word) (s : State) : (ackOutOfOrder a s).recvBuffer = s.recvBuffer := by unfold ackOutOfOrder; dsimp only; split <;> rfl
@[simp] theorem ackOutOfOrder_mem (a : Word) (s : State) : (ackOutOfOrder a s).mem = s.mem := by unfold ackOutOfOrder; dsimp only; split <;> rfl
@[simp] theorem ackOutOfOrder_lent (a : Word) (s : State) : (ackOutOfOrder a s).lent = s.lent := by unfold ackOutOfOrder; dsimp only; split <;> rfl
@[simp] theorem ackOutOfOrder_inputs (a : Word) (s : State) : (ackOutOfOrder a s).inputs = s.inputs := by unfold ackOutOfOrder; dsimp only; split <;> rfl
@[simp] theorem ackOutOfOrder_tx (a : Word) (s : State) : (ackOutOfOrder a s).tx = s.tx := by unfold ackOutOfOrder; dsimp only; split <;> rfl
@[simp] theorem ackOutOfOrder_readData (a : Word) (s : State) : (ackOutOfOrder a s).readData = s.readData := by unfold ackOutOfOrder; dsimp only; split <;> rfl

/-! ### replyClose -/

@[simp] theorem replyClose_cfg (p : Word) (s : State) : (replyClose p s).cfg = s.cfg := rfl
@[simp] theorem replyClose_arg0 (p : Word) (s : State) : (replyClose p s).arg0 = s.arg0 := rfl
@[simp] theorem replyClose_arg1 (p : Word) (s : State) : (replyClose p s).arg1 = s.arg1 := rfl
@[simp] theorem replyClose_result (p : Word) (s : State) : (replyClose p s).result = s.result := rfl
@[simp] theorem replyClose_irqEn (p : Word) (s : State) : (replyClose p s).irqEn = s.irqEn := rfl
@[simp] theorem replyClose_status_done (p : Word) (s : State) : (replyClose p s).status.done = s.status.done := rfl
@[simp] theorem replyClose_status_err (p : Word) (s : State) : (replyClose p s).status.err = s.status.err := rfl
@[simp] theorem replyClose_status_cmdOverrun (p : Word) (s : State) : (replyClose p s).status.cmdOverrun = s.status.cmdOverrun := rfl
@[simp] theorem replyClose_status_errCode (p : Word) (s : State) : (replyClose p s).status.errCode = s.status.errCode := rfl
@[simp] theorem replyClose_status_connState (p : Word) (s : State) : (replyClose p s).status.connState = .closingByPeer := rfl
@[simp] theorem replyClose_status_role (p : Word) (s : State) : (replyClose p s).status.role = s.status.role := rfl
@[simp] theorem replyClose_status_finSeen (p : Word) (s : State) : (replyClose p s).status.finSeen = s.status.finSeen := rfl
@[simp] theorem replyClose_status_csumLog (p : Word) (s : State) : (replyClose p s).status.csumLog = s.status.csumLog := rfl
@[simp] theorem replyClose_status_protoLog (p : Word) (s : State) : (replyClose p s).status.protoLog = s.status.protoLog := rfl
@[simp] theorem replyClose_status_rxbufValid (p : Word) (s : State) : (replyClose p s).status.rxbufValid = s.status.rxbufValid := rfl
@[simp] theorem replyClose_status_phase (p : Word) (s : State) : (replyClose p s).status.phase = .waitFinalAck := rfl
@[simp] theorem replyClose_status_rxTotalValid (p : Word) (s : State) : (replyClose p s).status.rxTotalValid = s.status.rxTotalValid := rfl
@[simp] theorem replyClose_count (p : Word) (s : State) : (replyClose p s).count = s.count := rfl
@[simp] theorem replyClose_prog (p : Word) (s : State) : (replyClose p s).prog = s.prog := rfl
@[simp] theorem replyClose_cmd (p : Word) (s : State) : (replyClose p s).cmd = s.cmd := rfl
@[simp] theorem replyClose_snd (p : Word) (s : State) : (replyClose p s).snd = s.snd := rfl
@[simp] theorem replyClose_rcv (p : Word) (s : State) : (replyClose p s).rcv = s.rcv := rfl
@[simp] theorem replyClose_consecTo (p : Word) (s : State) : (replyClose p s).consecTo = s.consecTo := rfl
@[simp] theorem replyClose_recvBuffer (p : Word) (s : State) : (replyClose p s).recvBuffer = s.recvBuffer := rfl
@[simp] theorem replyClose_mem (p : Word) (s : State) : (replyClose p s).mem = s.mem := rfl
@[simp] theorem replyClose_lent (p : Word) (s : State) : (replyClose p s).lent = s.lent := rfl
@[simp] theorem replyClose_inputs (p : Word) (s : State) : (replyClose p s).inputs = s.inputs := rfl
@[simp] theorem replyClose_readData (p : Word) (s : State) : (replyClose p s).readData = s.readData := rfl

/-! ### storeDatagram -/

@[simp] theorem storeDatagram_cfg (e : RxEvent) (s : State) : (storeDatagram e s).cfg = s.cfg := by cases e <;> rfl
@[simp] theorem storeDatagram_arg0 (e : RxEvent) (s : State) : (storeDatagram e s).arg0 = s.arg0 := by cases e <;> rfl
@[simp] theorem storeDatagram_arg1 (e : RxEvent) (s : State) : (storeDatagram e s).arg1 = s.arg1 := by cases e <;> rfl
@[simp] theorem storeDatagram_result (e : RxEvent) (s : State) : (storeDatagram e s).result = s.result := by cases e <;> rfl
@[simp] theorem storeDatagram_irqEn (e : RxEvent) (s : State) : (storeDatagram e s).irqEn = s.irqEn := by cases e <;> rfl
@[simp] theorem storeDatagram_status (e : RxEvent) (s : State) : (storeDatagram e s).status = s.status := by cases e <;> rfl
@[simp] theorem storeDatagram_conn (e : RxEvent) (s : State) : (storeDatagram e s).conn = s.conn := by cases e <;> rfl
@[simp] theorem storeDatagram_count (e : RxEvent) (s : State) : (storeDatagram e s).count = s.count := by cases e <;> rfl
@[simp] theorem storeDatagram_prog (e : RxEvent) (s : State) : (storeDatagram e s).prog = s.prog := by cases e <;> rfl
@[simp] theorem storeDatagram_cmd (e : RxEvent) (s : State) : (storeDatagram e s).cmd = s.cmd := by cases e <;> rfl
@[simp] theorem storeDatagram_snd (e : RxEvent) (s : State) : (storeDatagram e s).snd = s.snd := by cases e <;> rfl
@[simp] theorem storeDatagram_rcv (e : RxEvent) (s : State) : (storeDatagram e s).rcv = s.rcv := by cases e <;> rfl
@[simp] theorem storeDatagram_consecTo (e : RxEvent) (s : State) : (storeDatagram e s).consecTo = s.consecTo := by cases e <;> rfl
@[simp] theorem storeDatagram_mem (e : RxEvent) (s : State) : (storeDatagram e s).mem = s.mem := by cases e <;> rfl
@[simp] theorem storeDatagram_lent (e : RxEvent) (s : State) : (storeDatagram e s).lent = s.lent := by cases e <;> rfl
@[simp] theorem storeDatagram_inputs (e : RxEvent) (s : State) : (storeDatagram e s).inputs = s.inputs := by cases e <;> rfl
@[simp] theorem storeDatagram_tx (e : RxEvent) (s : State) : (storeDatagram e s).tx = s.tx := by cases e <;> rfl
@[simp] theorem storeDatagram_readData (e : RxEvent) (s : State) : (storeDatagram e s).readData = s.readData := by cases e <;> rfl

end Sys2Proof.Machine
end

