-- ==== Sys2Proof/Laws/Events.lean ====
section
/-! SUPPORT. One RX event taken by the engine, and the classes of datagrams. -/

namespace Sys2Proof.Machine

/-! ### Classes and lengths (R94, R95) -/

theorem classify_of_length_32 {b : List Byte} (h : b.length = 32) : classify b = classifyCtrl (ctrlOf b) := by
  simp [classify, h]

theorem classifyCtrl_control (c : Half) : classifyCtrl c ≠ .pfx ∧ classifyCtrl c ≠ .data := by
  unfold classifyCtrl
  repeat' split
  all_goals simp

/-- Only 4 bytes are a length prefix. -/
theorem classify_pfx_iff (b : List Byte) : classify b = .pfx ↔ b.length = 4 := by
  unfold classify
  split
  · simp [*]
  · split
    · simp [*, (classifyCtrl_control (ctrlOf b)).1]
    · simp [*]

/-- Every length but 4 and 32 is data. -/
theorem classify_data_iff (b : List Byte) : classify b = .data ↔ b.length ≠ 4 ∧ b.length ≠ 32 := by
  unfold classify
  split
  · simp [*]
  · split
    · simp [*, (classifyCtrl_control (ctrlOf b)).2]
    · simp [*]

/-- A control segment is 32 bytes long. -/
theorem length_of_control {b : List Byte} {c : DgramClass} (h : classify b = c) (h1 : c ≠ .pfx) (h2 : c ≠ .data) :
    b.length = 32 := by
  by_contra hn
  by_cases h4 : b.length = 4
  · exact h1 (h ▸ (classify_pfx_iff b).2 h4)
  · exact h2 (h ▸ (classify_data_iff b).2 ⟨h4, hn⟩)

/-! ### The event (R131, R132, R272) -/

/-- recv_buffer with the datagram in it, before the phase's rule runs. -/
abbrev withDatagram (b : List Byte) (s : State) : State := { s with recvBuffer := b.take (32 + s.cfg.mss.toNat) }

/-- An admitted datagram runs the rule of the phase. -/
theorem rxEvent_datagram {s : State} {b : List Byte} (src : Word) (h : b.length ≤ s.cfg.maxDgram.toNat) :
    rxEvent (.datagram b src) s = dispatchEvent (.datagram b src) (withDatagram b s) := by
  simp [rxEvent, RxEvent.wf, h, storeDatagram]

/-- A datagram of at most `32 + MSS` bytes is admitted and stored whole. -/
theorem rxEvent_datagram_small {s : State} {b : List Byte} (src : Word) (hc : s.cfg.wf = true)
    (h : b.length ≤ 32 + s.cfg.mss.toNat) :
    rxEvent (.datagram b src) s = dispatchEvent (.datagram b src) { s with recvBuffer := b } := by
  have := Params.wf_bounds hc
  rw [rxEvent_datagram src (by omega), withDatagram, List.take_of_length_le h]

/-- So is every control segment. -/
theorem rxEvent_control {s : State} {b : List Byte} {c : DgramClass} (src : Word) (hc : s.cfg.wf = true)
    (h : classify b = c) (h1 : c ≠ .pfx) (h2 : c ≠ .data) :
    rxEvent (.datagram b src) s = dispatchEvent (.datagram b src) { s with recvBuffer := b } :=
  rxEvent_datagram_small src hc (by have := length_of_control h h1 h2; omega)

/-- A TimedOut runs the rule of the phase at once. -/
theorem rxEvent_timedOut (s : State) : rxEvent .timedOut s = dispatchEvent .timedOut s := rfl

/-- All an RX event can do when its step completes: the rule of the phase, on the state with the datagram in
recv_buffer. -/
theorem rxEvent_cases {e : RxEvent} {s t : State} (h : rxEvent e s = .next t) :
    dispatchEvent e (storeDatagram e s) = .next t := by
  cases e with
  | timedOut => exact h
  | datagram b src =>
    unfold rxEvent at h
    simp only at h
    split at h
    · exact h
    · cases h

/-! ### Sticky logs -/

theorem logCsumUnless_eq (v : Bool) (s : State) :
    logCsumUnless v s = { s with status.csumLog := if v then s.status.csumLog else true } := by
  cases v <;> rfl

/-! ### What a step sends (R270, R271, R277) -/

theorem sentBy_of_append {s t : State} {l : List Tx} (h : t.tx = s.tx ++ l) : sentBy s t = l := by simp [sentBy, h]

theorem sentTo_of_append {s t : State} {l : List Tx} (w : Word) (h : t.tx = s.tx ++ l) :
    sentTo w s t = (l.filter fun d => d.dest = w).map Tx.bytes := by rw [sentTo, sentBy_of_append h]

/-- A step that sends only toward `w` puts all it sends in flight to `w`. -/
theorem sentTo_all {s t : State} {l : List Tx} {w : Word} (h : t.tx = s.tx ++ l) (hd : ∀ d ∈ l, d.dest = w) :
    sentTo w s t = l.map Tx.bytes := by
  rw [sentTo_of_append w h, List.filter_eq_self.2 (by simpa using hd)]

/-- A step that sends nothing toward `w` puts nothing in flight to `w`. -/
theorem sentTo_none {s t : State} {l : List Tx} {w : Word} (h : t.tx = s.tx ++ l) (hd : ∀ d ∈ l, d.dest ≠ w) :
    sentTo w s t = [] := by
  rw [sentTo_of_append w h, List.filter_eq_nil_iff.2 (by simpa using hd), List.map_nil]

end Sys2Proof.Machine
end

