-- ==== Sys2Proof/Laws/PerInstr.lean ====
section
/-! SUPPORT. One lemma per command: the encoder's word decodes back to the command, whatever stands in the ignored
bits of the command word. -/

namespace Sys2Proof.Laws.EncodingRoundTrip

/-- The command's word decodes to it, its opcode lies in the map of R81, and CMD[31:8] is ignored (R80). -/
def Statement (i : Instr) : Prop :=
  i.wf = true ∧ decode (encode i) = .ok i ∧ decodeTableWord 32 (encode i).toNat = some i ∧
    ∀ u : BitVec 24, decode (u ++ i.opcode) = .ok i

theorem of_opcode (i : Instr) (h : decodeOp i.opcode = .ok i) (u : BitVec 24) : decode (u ++ i.opcode) = .ok i := by
  have : opcodeOf (u ++ i.opcode) = i.opcode := by
    apply BitVec.eq_of_getLsbD_eq
    intro j hj
    rw [opcodeOf, BitVec.getLsbD_extractLsb', Nat.zero_add, decide_eq_true hj, Bool.true_and]
    exact BitVec.getLsbD_append.trans (by simp [hj])
  rw [decode, this, h]

theorem openConn : Statement .openConn := ⟨rfl, by decide, by decide, of_opcode _ (by decide)⟩
theorem connect : Statement .connect := ⟨rfl, by decide, by decide, of_opcode _ (by decide)⟩
theorem listen : Statement .listen := ⟨rfl, by decide, by decide, of_opcode _ (by decide)⟩
theorem accept : Statement .accept := ⟨rfl, by decide, by decide, of_opcode _ (by decide)⟩
theorem send : Statement .send := ⟨rfl, by decide, by decide, of_opcode _ (by decide)⟩
theorem recv : Statement .recv := ⟨rfl, by decide, by decide, of_opcode _ (by decide)⟩
theorem shutdown : Statement .shutdown := ⟨rfl, by decide, by decide, of_opcode _ (by decide)⟩
theorem buildHeader : Statement .buildHeader := ⟨rfl, by decide, by decide, of_opcode _ (by decide)⟩
theorem sealSegment : Statement .sealSegment := ⟨rfl, by decide, by decide, of_opcode _ (by decide)⟩
theorem verify : Statement .verify := ⟨rfl, by decide, by decide, of_opcode _ (by decide)⟩
theorem classify : Statement .classify := ⟨rfl, by decide, by decide, of_opcode _ (by decide)⟩

end Sys2Proof.Laws.EncodingRoundTrip
end

