-- ==== Sys2Proof/Laws/Send.lean ====
section
/-! SUPPORT. The send engine: windows and offsets, what a round start can do, and the fields that growth, halving and
confirmation leave alone. -/

namespace Sys2Proof.Machine

/-! ### Windows and offsets (R16, R203) -/

theorem flowWindow_pos (s : State) : 1 ≤ flowWindow s := by
  unfold flowWindow
  split
  · omega
  · rename_i h
    have : s.conn.peerWindow.toNat ≠ 0 := fun h' => h (BitVec.eq_of_toNat_eq h')
    omega

theorem flowWindow_le (s : State) : flowWindow s ≤ 65535 := by
  have := s.conn.peerWindow.isLt
  unfold flowWindow
  split <;> omega

/-- A round of a SEND with bytes left holds 1 to 65535 bytes, none past the payload (R203). -/
theorem roundSize_bounds (s : State) {left : Nat} (hw : 1 ≤ s.conn.cwnd.toNat) (hl : 1 ≤ left) :
    1 ≤ roundSize s left ∧ roundSize s left ≤ 65535 ∧ roundSize s left ≤ left := by
  have h1 := flowWindow_pos s
  have h2 := flowWindow_le s
  unfold roundSize
  omega

/-- Offsets add when they stay inside a 32-bit length. -/
theorem off_add (s : State) (x : Word) (k n : Nat) (h : (off s x).toNat + k ≤ n) (hn : n < 4294967296) :
    (off s (x + BitVec.ofNat 32 k)).toNat = (off s x).toNat + k := by
  have hx : off s (x + BitVec.ofNat 32 k) = off s x + BitVec.ofNat 32 k := by
    simp only [off]
    exact add_sub_right_comm x _ _
  rw [hx, BitVec.toNat_add, BitVec.toNat_ofNat]
  simp only [Nat.reducePow]
  omega

/-- The offset of `end_k` (R49, R204). -/
theorem off_endSeq (s : State) (k : Nat)
    (h : (off s s.snd.roundSeq).toNat + s.snd.roundLen.toNat ≤ s.snd.maxOff.toNat) :
    (off s (endSeq s k)).toNat =
      (off s s.snd.roundSeq).toNat + min ((k + 1) * s.cfg.mss.toNat) s.snd.roundLen.toNat := by
  have := s.snd.maxOff.isLt
  exact off_add s _ _ s.snd.maxOff.toNat (by omega) (by omega)

/-! ### Round start (R202) -/

/-- All a round start can do: complete the SEND, or begin a round and hand over its chunks. -/
theorem startRound_cases {s t : State} (h : startRound s = .next t) :
    (s.snd.len - off s s.conn.seq = 0 ∧
      t = complete (off s s.conn.seq) { s with prog.txDelivered := off s s.conn.seq }) ∨
    (s.snd.len - off s s.conn.seq ≠ 0 ∧
      ∃ u : State,
        u = beginRound (off s s.conn.seq).toNat (roundSize s (s.snd.len - off s s.conn.seq).toNat)
          { s with prog.txDelivered := off s s.conn.seq } ∧
        t = { u with tx := s.tx ++ (List.range' 0 u.snd.roundN.toNat).map (chunkTx u) } ∧
        ∀ j, j < u.snd.roundN.toNat → admitted s.lent (chunkAddr u j) (chunkLen u j) .read = true) := by
  unfold startRound at h
  dsimp only at h
  split at h
  · cases h
    exact .inl ⟨‹_›, rfl⟩
  · obtain ⟨rfl, ha⟩ := transmitChunks_next h
    exact .inr ⟨‹_›, _, rfl, rfl, fun j hj => ha j (Nat.zero_le _) (by rw [Nat.zero_add]; exact hj)⟩

/-! ### Fields that the congestion rules leave alone (R216, R217, R220, R221) -/

@[simp] theorem growCwnd_conn_seq (s : State) : (growCwnd s).conn.seq = s.conn.seq := by
  unfold growCwnd; split <;> [rfl; split <;> rfl]

@[simp] theorem growCwnd_conn_peerAddr (s : State) : (growCwnd s).conn.peerAddr = s.conn.peerAddr := by
  unfold growCwnd; split <;> [rfl; split <;> rfl]

@[simp] theorem growCwnd_conn_ssthresh (s : State) : (growCwnd s).conn.ssthresh = s.conn.ssthresh := by
  unfold growCwnd; split <;> [rfl; split <;> rfl]

/-- Growth changes CWND and ca_grown only. -/
theorem growCwnd_eq (s : State) : ∃ w g, growCwnd s = { s with conn.cwnd := w, snd.caGrown := g } := by
  unfold growCwnd
  split
  · exact ⟨_, s.snd.caGrown, rfl⟩
  · split
    · exact ⟨s.conn.cwnd, s.snd.caGrown, rfl⟩
    · exact ⟨_, _, rfl⟩

/-- An in-order ack changes SEQ_NUMBER, CWND and ca_grown only (R215 to R217). -/
theorem ackInOrder_eq {s t : State} (h : ackInOrder s = t) :
    ∃ w g, t = { s with
      conn := { s.conn with seq := endSeq s s.snd.waitK.toNat, cwnd := w }, snd.caGrown := g } := by
  obtain ⟨w, g, hg⟩ := growCwnd_eq { s with conn.seq := endSeq s s.snd.waitK.toNat }
  exact ⟨w, g, h.symm.trans hg⟩

/-- CWND stays positive under growth (R30). -/
theorem growCwnd_cwnd_pos (s : State) (h : 1 ≤ s.conn.cwnd.toNat) : 1 ≤ (growCwnd s).conn.cwnd.toNat := by
  unfold growCwnd
  split
  · rw [satAdd32_toNat]
    omega
  · split
    · exact h
    · rw [satAdd32_toNat]
      omega

@[simp] theorem halveIfDup_conn_seq (s : State) : (halveIfDup s).conn.seq = s.conn.seq := by
  unfold halveIfDup; split <;> rfl

@[simp] theorem halveIfDup_conn_peerAddr (s : State) : (halveIfDup s).conn.peerAddr = s.conn.peerAddr := by
  unfold halveIfDup; split <;> rfl

@[simp] theorem confirmRecorded_conn_peerAddr (s : State) : (confirmRecorded s).conn.peerAddr = s.conn.peerAddr := by
  unfold confirmRecorded; split <;> rfl

@[simp] theorem confirmRecorded_conn_cwnd (s : State) : (confirmRecorded s).conn.cwnd = s.conn.cwnd := by
  unfold confirmRecorded; split <;> rfl

/-- Halving and collapse leave CWND and SSTHRESH positive (R30). -/
theorem halveIfDup_pos (s : State) (h1 : 1 ≤ s.conn.cwnd.toNat) (h2 : 1 ≤ s.conn.ssthresh.toNat) :
    1 ≤ (halveIfDup s).conn.cwnd.toNat ∧ 1 ≤ (halveIfDup s).conn.ssthresh.toNat := by
  have := s.conn.cwnd.isLt
  unfold halveIfDup
  split
  · simp only [BitVec.toNat_ofNat]
    omega
  · exact ⟨h1, h2⟩

theorem collapse_pos (s : State) (hc : s.cfg.wf = true) :
    1 ≤ (collapse s).conn.cwnd.toNat ∧ 1 ≤ (collapse s).conn.ssthresh.toNat := by
  have := s.conn.cwnd.isLt
  have := Params.wf_bounds hc
  simp only [collapse, BitVec.toNat_ofNat]
  omega

end Sys2Proof.Machine
end

