-- ==== Sys2Proof/Tests/Slice0.lean ====
section
/-! SUPPORT. Tests of the model against spec/95_test_vectors.md (each names its vector), smoke tests of WellFormed, and
for every statement with hypotheses a witness that meets them, clause by clause. -/

namespace Sys2Proof.Tests

set_option Elab.async false

open Sys2Proof Sys2Proof.Machine

/-! ### The engines of spec/95_test_vectors.md section 1 -/

/-- The parameters of section 1.2. -/
def vec : Params :=
  { mss := 1400, initWindow := 8192, initCwnd := 4200, initSsthresh := 8192, ackTimeoutUs := 1, maxRetries := 3,
    maxDgram := 1432, checksum := .crc32 }

/-- The state of R320. -/
def fresh : State := State.resetWith vec

/-- Engine A at P1-end. -/
def clientUp : State :=
  { fresh with
    status := { fresh.status with done := true, connState := .established, rxbufValid := true }
    conn := { fresh.conn with seq := 0x1001, ack := 0x2001, peerAddr := 7 } }

/-- Engine B at P1-end. -/
def serverUp : State :=
  { fresh with
    result := 9
    status := { fresh.status with done := true, connState := .established, role := .server, rxbufValid := true }
    conn := { fresh.conn with seq := 0x2001, ack := 0x1001, peerAddr := 9 } }

/-- A after `CMD CONNECT ARG0=0x1000 ARG1=7`. -/
def connecting : State :=
  { fresh with
    status := { fresh.status with phase := .connWaitSynack }
    conn := { fresh.conn with seq := 0x1000, peerAddr := 7 }
    cmd := { fresh.cmd with op := 0x02 } }

/-- B after LISTEN. -/
def listening : State :=
  { fresh with status := { fresh.status with done := true, connState := .listen, role := .server } }

/-- B after LISTEN and `CMD ACCEPT ARG0=0x2000`. -/
def accepting : State :=
  { fresh with
    status := { fresh.status with connState := .listen, role := .server, phase := .accWaitSyn }
    conn := { fresh.conn with seq := 0x2000 }
    cmd := { fresh.cmd with op := 0x04 } }

/-- B after the SYN of A. -/
def acceptingAck : State :=
  { accepting with
    status := { accepting.status with phase := .accWaitAck }
    conn := { accepting.conn with ack := 0x1001, peerAddr := 9 } }

/-- A after `CMD SEND ARG0=0x8000 ARG1=100` from P1-end. -/
def sending100 : State :=
  { clientUp with
    status := { clientUp.status with done := false, phase := .sndWaitAck }
    cmd := { clientUp.cmd with op := 0x05, arg0L := 0x8000, arg1L := 100 }
    snd :=
      { clientUp.snd with
        src := 0x8000, len := 100, base := 0x1001, maxOff := 100, roundSeq := 0x1001, roundLen := 100, roundN := 1 } }

/-- A after `CMD SEND ARG0=0x8000 ARG1=3000` from P1-end. -/
def sending3000 : State :=
  { sending100 with
    cmd := { sending100.cmd with arg1L := 3000 }
    snd := { sending100.snd with len := 3000, maxOff := 3000, roundLen := 3000, roundN := 3 } }

/-- B after `CMD RECV ARG0=0x9000 ARG1=4096` from P1-end. -/
def receiving : State :=
  { serverUp with
    status := { serverUp.status with done := false, phase := .rcvWait }
    cmd := { serverUp.cmd with op := 0x06, arg0L := 0x9000, arg1L := 4096 }
    conn := { serverUp.conn with currWindow := 4096 }
    rcv := { dst := 0x9000, max := 4096 } }

/-- A after `CMD RECV ARG0=0x9000 ARG1=4096` from P1-end. -/
def clientReceiving : State :=
  { receiving with
    result := 0
    status := { receiving.status with role := .client }
    conn := { receiving.conn with seq := 0x1001, ack := 0x2001, peerAddr := 7 } }

/-- A after `CMD SHUTDOWN` from P1-end. -/
def closing : State :=
  { clientUp with
    status := { clientUp.status with done := false, connState := .closingByPeer, phase := .shdWaitAck }
    conn := { clientUp.conn with seq := 0x1002 }
    cmd := { clientUp.cmd with op := 0x07 } }

/-- A in SHD_WAIT_FIN. -/
def closingFin : State := { closing with status := { closing.status with phase := .shdWaitFin } }

/-- B of V-T7 after the FIN|ACK. -/
def finalAck : State :=
  { receiving with
    status := { receiving.status with connState := .closingByPeer, rxTotalValid := true, phase := .waitFinalAck }
    conn := { receiving.conn with seq := 0x2002, ack := 0x157A, currWindow := 2696 }
    prog := { receiving.prog with rxWritten := 1400, rxTotal := 3000, rxExpectedSegs := 3 }
    cmd := { receiving.cmd with finalResult := 1400 } }

/-! ### Observing one step -/

/-- The step that takes the event `i` in state `s`. -/
def at1 (s : State) (i : Input) : Option State :=
  match step { s with inputs := [i] } with
  | .next t => some t
  | .fault _ => none
  | .refused _ => none

/-- STATUS, RESULT and the datagrams sent after the event `i`. -/
def see (s : State) (i : Input) : Option (Word × Word × List (List Byte)) :=
  (at1 s i).map fun t => (statusWord t, t.result, (t.tx.drop s.tx.length).map Tx.bytes)

/-- The write of the command word `w` with ARG0 and ARG1 as given. -/
def issueOn (s : State) (a0 a1 w : Word) : Option State := at1 { s with arg0 := a0, arg1 := a1 } (.regWrite 0x20 4 w)

/-- STATUS, RESULT and the datagrams sent after that write. -/
def seeIssue (s : State) (a0 a1 w : Word) : Option (Word × Word × List (List Byte)) :=
  see { s with arg0 := a0, arg1 := a1 } (.regWrite 0x20 4 w)

/-- `SEG{...}` of R102: a sealed segment. -/
def seg (seq ack : Word) (ctrl win : Half) (p : List Byte) : List Byte :=
  sealWith crc32 (hdr seq ack ctrl win (BitVec.ofNat 32 p.length) ++ p)

/-- Header bytes written as eight words, as the vectors write them. -/
def words (ws : List Word) : List Byte := ws.flatMap be32

/-- An RX event with a datagram from handle `src`. -/
def rx (b : List Byte) (src : Word) : Input := .rx (.datagram b src)

/-- `b` with the bits of `m` flipped in byte `i`. -/
def alter (b : List Byte) (i : Nat) (m : Byte) : List Byte := b.modify i fun x => x ^^^ m

/-! ### Decoding (R80, R81): words written out from the opcode column -/

theorem test_decode_connection_commands :
    decodeTableWord 32 0x00000001 = some .openConn ∧ decodeTableWord 32 0x00000002 = some .connect ∧
    decodeTableWord 32 0x00000003 = some .listen ∧ decodeTableWord 32 0x00000004 = some .accept ∧
    decodeTableWord 32 0x00000005 = some .send ∧ decodeTableWord 32 0x00000006 = some .recv ∧
    decodeTableWord 32 0x00000007 = some .shutdown := by decide

theorem test_decode_codec_commands :
    decodeTableWord 32 0x00000010 = some .buildHeader ∧ decodeTableWord 32 0x00000011 = some .sealSegment ∧
    decodeTableWord 32 0x00000012 = some .verify ∧ decodeTableWord 32 0x00000013 = some .classify ∧
    decodeTableWord 8 0x13 = some .classify := by decide

/-- R83, and the ignored bits of R80 (V-P2, V-P3). -/
theorem test_decode_reserved_and_ignored :
    decodeTableWord 32 0x00000000 = none ∧ decodeTableWord 32 0x00000008 = none ∧
    decodeTableWord 32 0x0000000F = none ∧ decodeTableWord 32 0x00000014 = none ∧
    decodeTableWord 32 0x000000FF = none ∧ decodeTableWord 32 0x00000105 = some .send ∧
    decodeTableWord 32 0xFFFFFF03 = some .listen := by decide

theorem test_encode_words :
    encode .openConn = 0x00000001#32 ∧ encode .shutdown = 0x00000007#32 ∧ encode .buildHeader = 0x00000010#32 ∧
    encode .classify = 0x00000013#32 := by decide

/-- Every command placed by `withFetchWord` runs as the first one after reset. -/
theorem test_withFetchWord_runs_every_command :
    [0x01, 0x02, 0x03, 0x04, 0x05, 0x06, 0x07, 0x10, 0x11, 0x12, 0x13].all (fun w =>
      match step (State.reset.withFetchWord 32 w) with
      | .next t => t.cmd.op == BitVec.ofNat 8 w
      | .fault _ => false
      | .refused _ => false) = true := by decide +kernel

/-! ### WellFormed: what each check refuses -/

theorem test_params_wf : vec.wf = true := by decide
theorem test_params_mss_zero : { vec with mss := 0 }.wf = false := by decide
theorem test_params_mss_large : { vec with mss := 65536, maxDgram := 70000 }.wf = false := by decide
theorem test_params_window_zero : { vec with initWindow := 0 }.wf = false := by decide
theorem test_params_cwnd_zero : { vec with initCwnd := 0 }.wf = false := by decide
theorem test_params_ssthresh_zero : { vec with initSsthresh := 0 }.wf = false := by decide
theorem test_params_timeout_zero : { vec with ackTimeoutUs := 0 }.wf = false := by decide
theorem test_params_dgram_small : { vec with maxDgram := 1431 }.wf = false := by decide

theorem test_regAccess :
    regAccessOk 0xFC 4 = true ∧ regAccessOk 0x30 2 = false ∧ regAccessOk 0x32 4 = false ∧
    regAccessOk 0x100 4 = false := by decide

theorem test_hostRange : hostRangeOk 0xFFFFFFFC 4 = true ∧ hostRangeOk 0xFFFFFFFD 4 = false := by decide

theorem test_rxEvent_too_long :
    RxEvent.wf vec (.datagram (zeros 1432) 7) = true ∧ RxEvent.wf vec (.datagram (zeros 1433) 7) = false := by
  decide +kernel

/-- The step refuses what the checks refuse (R61, R63, R272). -/
theorem test_step_refusals :
    at1 fresh (.regWrite 0x22 4 1) = none ∧ at1 fresh (.regRead 0x100 4) = none ∧
    at1 fresh (.memWrite 0xFFFFFFFF [1, 2]) = none ∧ at1 receiving (rx (zeros 1433) 9) = none := by decide +kernel

theorem test_instr_wf : Instr.wf .openConn = true ∧ Instr.wf .classify = true := by decide

/-! ### CHECKSUM of the vectors (I1) -/

/-- The check value of CRC-32 over "123456789" (section 1.2). -/
theorem test_crc32_check_value :
    crc32 [0x31, 0x32, 0x33, 0x34, 0x35, 0x36, 0x37, 0x38, 0x39] = 0xCBF43926#32 := by decide +kernel

/-! ### Commands -/

/-- V-P7. -/
theorem test_open_after_failed_teardown :
    (issueOn { closing with status := { closing.status with phase := .idle, err := true, errCode := .protocolViolation } }
      0 0 1).map (fun t => (statusWord t, t.conn.seq, t.conn.ack, t.conn.cwnd, t.conn.peerAddr)) =
    some (0x00000002, 0, 0, 4200, 0) := by decide +kernel

/-- V1. -/
theorem test_connect_sends_the_syn :
    seeIssue fresh 0x1000 7 2 =
    some (0x00010001, 0, [words [0x00001000, 0, 0x20002000, 0, 0, 0, 0, 0x1FAF0516]]) := by decide +kernel

/-- V-P3, second part. -/
theorem test_listen : seeIssue fresh 0 0 0xFFFFFF03 = some (0x00000902, 0, []) := by decide +kernel

/-- V-P4. -/
theorem test_listen_precondition : seeIssue listening 0 0 3 = some (0x00000976, 0, []) := by decide +kernel

/-- P1 step 2. -/
theorem test_accept :
    seeIssue listening 0x2000 0 4 = some (0x00020901, 0, []) ∧
    (issueOn listening 0x2000 0 4).map (fun t => t.conn.seq) = some 0x2000 := by decide +kernel

/-- V-S5. -/
theorem test_send_nothing :
    seeIssue clientUp 0x8000 0 5 = some (0x00008202, 0, [[0x00, 0x00, 0x00, 0x00]]) := by decide +kernel

/-- V-S6, first part: the zero-window probe. Memory at 0x8000 holds 0. -/
theorem test_send_zero_window_probe :
    seeIssue { clientUp with conn := { clientUp.conn with peerWindow := 0 } } 0x8000 10 5 =
    some (0x00048201, 0,
      [[0x00, 0x00, 0x00, 0x0A],
       words [0x00001001, 0x00002001, 0x00002000, 1, 0, 0, 0, 0x1E211ED1] ++ [0x00]]) := by decide +kernel

/-- Section 3.6 start, and V-R19. -/
theorem test_recv_window :
    seeIssue serverUp 0x9000 4096 6 = some (0x00058A01, 9, []) ∧
    (issueOn serverUp 0x9000 4096 6).map (fun t => t.conn.currWindow) = some 4096 ∧
    (issueOn serverUp 0x9000 0 6).map (fun t => t.conn.currWindow) = some 0 := by decide +kernel

/-- V-T1, A's side. -/
theorem test_shutdown_sends_fin :
    seeIssue clientUp 0 0 7 =
    some (0x00078401, 0, [words [0x00001001, 0x00002001, 0x48002000, 0, 0, 0, 0, 0x5CF1C4FC]]) := by decide +kernel

/-- P5 step 4. -/
theorem test_shutdown_after_the_peers_fin :
    seeIssue
      { clientUp with
        status := { clientUp.status with finSeen := true }
        conn := { clientUp.conn with peerFinSeq := 0x2001 } } 0 0 7 =
    some (0x00069401, 0,
      [words [0x00001001, 0x00002002, 0x08002000, 0, 0, 0, 0, 0x4FC0881A],
       words [0x00001002, 0x00002002, 0x48002000, 0, 0, 0, 0, 0xCC1419C3]]) := by decide +kernel

/-- V2. -/
theorem test_build_header :
    seeIssue fresh 0x0800 0x100 0x10 = some (0x00000002, 0x4398FBD0, []) ∧
    (issueOn fresh 0x0800 0x100 0x10).map (fun t => t.mem.readBytes 0x100 32) =
      some (words [0, 0, 0x08002000, 0, 0, 0, 0, 0x4398FBD0]) := by decide +kernel

/-- V9. -/
theorem test_build_header_ignores_the_high_half :
    (issueOn fresh 0xABCD4800 0x500 0x10).map (fun t => (t.result, t.mem.readBytes 0x500 32)) =
      some (0x65440165, words [0, 0, 0x48002000, 0, 0, 0, 0, 0x65440165]) := by decide +kernel

/-- Host memory of V2's end at address `a`. -/
def v2 (a : Nat) : Memory := Memory.writeBytes [] a (words [0, 0, 0x08002000, 0, 0, 0, 0, 0x4398FBD0])

/-- V3. -/
theorem test_seal :
    (issueOn { fresh with mem := (v2 0x100).set 0x120 0x41 } 0x100 33 0x11).map
      (fun t => (t.result, t.mem.readBytes 0x11C 5)) =
      some (0x5549D4A4, [0x55, 0x49, 0xD4, 0xA4, 0x41]) := by decide +kernel

/-- V5. -/
theorem test_seal_short : seeIssue fresh 0x300 31 0x11 = some (0x00000076, 0, []) := by decide +kernel

/-- V4, and V6. -/
theorem test_verify :
    seeIssue { fresh with mem := v2 0x200 } 0x200 32 0x12 = some (0x00000002, 1, []) ∧
    seeIssue fresh 0x300 0 0x12 = some (0x00000076, 0, []) := by decide +kernel

/-- V4, second part, and V7. -/
theorem test_verify_altered :
    seeIssue { fresh with mem := (v2 0x200).set 0x203 0x01 } 0x200 32 0x12 = some (0x00002016, 0, []) ∧
    seeIssue { fresh with mem := (v2 0x400).set 0x41F 0x50 } 0x400 32 0x12 = some (0x00002016, 0, []) := by
  decide +kernel

/-- The result of `CMD CLASSIFY ARG0=0x300 ARG1=n` with control field `c` (V11). -/
def classOf (n c : Word) : Option Word :=
  (issueOn { fresh with mem := Memory.writeBytes [] 0x308 (be16 (c.setWidth 16)) } 0x300 n 0x13).map fun t => t.result

/-- V11. -/
theorem test_classify_control :
    classOf 32 0x4800 = some 1 ∧ classOf 32 0x4801 = some 1 ∧ classOf 32 0xC800 = some 1 ∧
    classOf 32 0x6800 = some 1 ∧ classOf 32 0x0800 = some 2 ∧ classOf 32 0x2000 = some 3 ∧
    classOf 32 0x2800 = some 4 ∧ classOf 32 0x0000 = some 5 ∧ classOf 32 0x4000 = some 5 ∧
    classOf 32 0x0801 = some 5 ∧ classOf 32 0x2801 = some 5 := by decide +kernel

/-- V11. -/
theorem test_classify_length :
    classOf 4 0x4800 = some 0 ∧ classOf 0 0x4800 = some 6 ∧ classOf 31 0x4800 = some 6 ∧
    classOf 33 0x4800 = some 6 ∧ classOf 1433 0x4800 = some 6 := by decide +kernel

/-! ### The command port -/

/-- V-P1. -/
theorem test_reset_reads :
    readReg (Reg.ofOffset 0x00) fresh = 0x4D544350 ∧ readReg (Reg.ofOffset 0x30) fresh = 0 ∧
    readReg (Reg.ofOffset 0x40) fresh = 0 ∧ readReg (Reg.ofOffset 0x48) fresh = 4200 ∧
    readReg (Reg.ofOffset 0x4C) fresh = 8192 ∧ readReg (Reg.ofOffset 0x50) fresh = 0x20002000 ∧
    readReg (Reg.ofOffset 0x1C) fresh = 0 := by decide

/-- V-P2. -/
theorem test_reserved_opcode :
    seeIssue fresh 0 0 0x00000000 = some (0x00000066, 0, []) ∧
    seeIssue fresh 0 0 0x00000014 = some (0x00000066, 0, []) := by decide +kernel

/-- V-P3, first part. -/
theorem test_send_precondition : seeIssue fresh 0 0 0x00000105 = some (0x00000076, 0, []) := by decide +kernel

/-- V-P5. -/
theorem test_command_while_busy : seeIssue accepting 0 0 5 = some (0x00020909, 0, []) := by decide +kernel

/-- V-P6. -/
theorem test_write_one_to_clear :
    see
      { fresh with
        status := { fresh.status with done := true, err := true, errCode := .checksumMismatch, csumLog := true } }
      (.regWrite 0x30 4 0x00002006) = some (0x00000010, 0, []) := by decide +kernel

/-- R128: ARG0 is writable while a command runs; R71: SEQ_NUMBER is not. -/
theorem test_register_writes :
    (at1 sending100 (.regWrite 0x24 4 5)).map (fun t => t.arg0) = some 5 ∧
    at1 sending100 (.regWrite 0x40 4 5) = some sending100 := by decide +kernel

/-- R321: reset in a wait phase. -/
theorem test_reset_in_a_wait_phase :
    (at1 sending100 .hwReset).map (fun t => (t.status, t.conn)) = some (fresh.status, fresh.conn) := by decide +kernel

/-! ### Handshake and teardown events -/

/-- V-H2. -/
theorem test_synack_corrupted :
    (at1 connecting (rx (alter (seg 0x2000 0x1001 0x2800 4000 []) 20 1) 7)).map
      (fun t => (statusWord t, t.conn.seq, t.conn.ack, t.conn.peerWindow)) =
    some (0x0000A202, 0x1001, 0x2001, 8192) := by decide +kernel

/-- V-H6. -/
theorem test_synack_wraps :
    see { connecting with conn := { connecting.conn with seq := 0xFFFFFFFF } } (rx (seg 0x2000 0 0x2800 4000 []) 7) =
    some (0x00008202, 0, [words [0, 0x00002001, 0x08002000, 0, 0, 0, 0, 0x69C6DB6F]]) := by decide +kernel

/-- V-H1, V-H3, V-H4. -/
theorem test_connect_failures :
    see connecting (rx (seg 0x2000 0x1002 0x2800 8192 []) 7) = some (0x00000026, 0, []) ∧
    see connecting (.rx .timedOut) = some (0x00000036, 0, []) ∧
    see connecting (rx [0, 0, 0, 5] 7) = some (0x00000056, 0, []) := by decide +kernel

/-- P1 step 4, and V-H7. -/
theorem test_accept_syn :
    see accepting (rx (seg 0x1000 0 0x2000 8192 []) 9) =
      some (0x00030901, 0, [words [0x00002000, 0x00001001, 0x28002000, 0, 0, 0, 0, 0x534FB6D8]]) ∧
    see accepting (.rx .timedOut) = some (0x00020901, 0, []) := by decide +kernel

/-- P1 step 6, V-H9 and V-H12. -/
theorem test_accept_ack :
    see acceptingAck (rx (seg 0x1001 0x2001 0x0800 8192 []) 9) = some (0x00008A02, 9, []) ∧
    see acceptingAck (rx (seg 0x1001 0x2002 0x0800 8192 []) 9) = some (0x00000926, 0, []) ∧
    see acceptingAck (.rx .timedOut) = some (0x00000936, 0, []) := by decide +kernel

/-- V-T2, V-T3. -/
theorem test_shd_wait_ack :
    see closing (rx (seg 0x2001 0x1001 0x0800 8192 []) 7) = some (0x00008426, 0, []) ∧
    see closing (.rx .timedOut) = some (0x00008436, 0, []) ∧
    see closing (rx (seg 0x2001 0x1002 0x0800 8192 []) 7) = some (0x00088401, 0, []) := by decide +kernel

/-- V-T5, and V-T4. -/
theorem test_shd_wait_fin :
    see closingFin (rx (alter (seg 0x2002 0x1002 0x4800 8192 []) 17 1) 7) =
      some (0x00002502, 0, [words [0x00001002, 0x00002003, 0x08002000, 0, 0, 0, 0, 0x4F437378]]) ∧
    see closingFin (rx (seg 0x2001 0x1002 0x0800 8192 []) 7) = some (0x00008456, 0, []) := by decide +kernel

/-- V-T7, the table. -/
theorem test_wait_final_ack :
    see finalAck (rx (seg 0x157A 0x2003 0x0800 8192 []) 9) = some (0x00100D02, 1400, []) ∧
    see finalAck (rx (seg 0x157A 0x2002 0x0800 8192 []) 9) = some (0x00108C26, 1400, []) ∧
    see finalAck (.rx .timedOut) = some (0x00108C36, 1400, []) := by decide +kernel

/-! ### Send-engine events -/

/-- SSTHRESH and CWND after `f` with the CWND given. -/
def cwndAfter (f : State → State) (c : Word) : Word × Word :=
  let t := f { sending100 with conn := { sending100.conn with cwnd := c } }
  (t.conn.ssthresh, t.conn.cwnd)

/-- V-S1. -/
theorem test_collapse :
    cwndAfter collapse 5600 = (2800, 1400) ∧ cwndAfter collapse 2801 = (1400, 1400) ∧
    cwndAfter collapse 2000 = (1000, 1000) ∧ cwndAfter collapse 3 = (1, 1) ∧ cwndAfter collapse 2 = (1, 1) ∧
    cwndAfter collapse 1 = (1, 1) ∧ cwndAfter collapse 0xFFFFFFFF = (0x7FFFFFFF, 1400) := by decide +kernel

/-- V-S2. -/
theorem test_halving :
    let f := fun s => halveIfDup { s with snd := { s.snd with roundDup := 2 } }
    cwndAfter f 5600 = (2800, 2801) ∧ cwndAfter f 1400 = (700, 701) ∧ cwndAfter f 2000 = (1000, 1001) ∧
    cwndAfter f 3 = (1, 2) ∧ cwndAfter f 2 = (1, 2) ∧ cwndAfter f 1 = (1, 1) ∧
    cwndAfter f 0xFFFFFFFF = (0x7FFFFFFF, 0x80000000) := by decide +kernel

/-- V-S7: the round ends with a halving and the 100 bytes are sent again. -/
theorem test_corrupted_ack :
    (at1 sending100 (rx (alter (seg 0x2001 0x1065 0x0800 5000 []) 0 1) 7)).map
        (fun t => (statusWord t, t.count, (t.conn.peerWindow, t.conn.cwnd), t.tx.map fun d => d.bytes.length)) =
    some (0x0004A201, { txDup := 1, rxDup := 0, timeout := 0, halve := 1 }, (8192, 2101), [132]) := by decide +kernel

/-- V-S8. -/
theorem test_send_ignores :
    see sending100 (rx [0, 0, 0, 5] 7) = some (0x0004C201, 0, []) ∧
    see sending100 (rx (seg 0x2001 0x1001 0x4800 8192 []) 7) = some (0x0004C201, 0, []) := by decide +kernel

/-- V-S11. -/
theorem test_cwnd_saturates :
    (at1 { sending100 with conn := { sending100.conn with cwnd := 0xFFFFFFFA, ssthresh := 0xFFFFFFFF } }
      (rx (seg 0x2001 0x1065 0x0800 8192 []) 7)).map (fun t => (statusWord t, t.result, t.conn.cwnd)) =
    some (0x00008202, 100, 0xFFFFFFFF) := by decide +kernel

/-- V-S4, the first and the last ack. -/
theorem test_congestion_avoidance :
    let s := { sending3000 with conn := { sending3000.conn with ssthresh := 4200 } }
    (at1 s (rx (seg 0x2001 0x1579 0x0800 6792 []) 7)).map (fun t => (t.conn.cwnd, t.conn.peerWindow, t.conn.seq)) =
      some (5600, 6792, 0x1579) ∧
    (at1
      { s with
        conn := { s.conn with seq := 0x1AF1, cwnd := 5600 }
        snd := { s.snd with waitK := 2, caGrown := true } }
      (rx (seg 0x2001 0x1BB9 0x0800 5192 []) 7)).map
        (fun t => (t.conn.cwnd, t.conn.peerWindow, t.conn.seq, t.result)) =
      some (5600, 5192, 0x1BB9, 3000) := by decide +kernel

/-- V-S9, steps 1 and 3. -/
theorem test_out_of_order_acks :
    (at1 sending3000 (rx (seg 0x2001 0x2000 0x0800 8192 []) 7)).map
      (fun t => (t.count.txDup, t.snd.recValid, t.snd.waitK)) = some (1, false, 1) ∧
    (at1
      { sending3000 with
        snd := { sending3000.snd with waitK := 2, roundDup := 2 }
        count := { sending3000.count with txDup := 2 } }
      (rx (seg 0x2001 0x1AF1 0x0800 8192 []) 7)).map
        (fun t => (t.count.txDup, t.conn.seq, t.conn.ssthresh, t.conn.cwnd, t.prog.roundStart, t.snd.roundLen)) =
      some (3, 0x1AF1, 2100, 2101, 2800, 200) := by decide +kernel

/-- V-S13, and the second timeout of V-S12. -/
theorem test_send_timeouts :
    (at1 { sending100 with cfg := { vec with maxRetries := 1 } } (.rx .timedOut)).map
      (fun t => (statusWord t, t.result, t.count.timeout, t.conn.ssthresh, t.conn.cwnd)) =
      some (0x00008236, 0, 1, 2100, 1400) ∧
    (at1 { sending100 with consecTo := 1, conn := { sending100.conn with cwnd := 1400, ssthresh := 2100 } }
      (.rx .timedOut)).map (fun t => (t.status.phase, t.consecTo, t.conn.ssthresh, t.conn.cwnd)) =
      some (.sndWaitAck, 2, 700, 700) := by decide +kernel

/-! ### Receive-engine events -/

/-- P3 step 15: 5 bytes accepted, and RECV completes. -/
theorem test_data_accepted :
    let s : State :=
      { receiving with
        status := { receiving.status with rxTotalValid := true }
        prog := { receiving.prog with rxTotal := 5, rxExpectedSegs := 1 }
        rcv := { dst := 0xA000, max := 8192 }
        conn := { receiving.conn with ack := 0x1BB9, currWindow := 8192 } }
    let b := seg 0x1BB9 0x2001 0x0000 8192 [0xB8, 0xB9, 0xBA, 0xBB, 0xBC]
    see s (rx b 9) =
      some (0x00108A02, 5, [words [0x00002001, 0x00001BBE, 0x08001FFB, 0, 0, 0, 0, 0x77C8CAED]]) ∧
    (at1 s (rx b 9)).map (fun t => (t.mem.readBytes 0x9FFF 7, t.conn.ack, t.conn.currWindow)) =
      some ([0x00, 0xB8, 0xB9, 0xBA, 0xBB, 0xBC, 0x00], 0x1BBE, 8187) := by decide +kernel

/-- V-R4 and V-R5, with a short payload; V-R7. -/
theorem test_data_rejected :
    let reply := words [0x00002001, 0x00001001, 0x08001000, 0, 0, 0, 0, 0xEFF64904]
    see receiving (rx (seg 0x1002 0x2001 0x0000 8192 [0x00]) 9) = some (0x00058A01, 9, [reply]) ∧
    see receiving (rx (alter (seg 0x1001 0x2001 0x0000 8192 [0x00]) 32 1) 9) = some (0x0005AA01, 9, [reply]) ∧
    see receiving (rx [1, 2, 3, 4, 5] 9) = some (0x00058A01, 9, [reply]) := by decide +kernel

/-- V-R6: a 1433-byte datagram (MAX_DGRAM raised to let it in). -/
theorem test_oversized_data_is_not_verified :
    see { receiving with cfg := { vec with maxDgram := 1433 } } (rx (zeros 1433) 9) =
      some (0x00058A01, 9, [words [0x00002001, 0x00001001, 0x08001000, 0, 0, 0, 0, 0xEFF64904]]) := by decide +kernel

/-- V-R8, V-R9 and V-R10. -/
theorem test_length_prefix :
    see receiving (rx [0x00, 0x00, 0x13, 0x88] 9) = some (0x00108A86, 0, []) ∧
    see receiving (rx [0, 0, 0, 0] 9) = some (0x00108A02, 0, []) ∧
    see
      { receiving with
        status := { receiving.status with rxTotalValid := true }, prog := { receiving.prog with rxTotal := 3000 } }
      (rx [0, 0, 0, 10] 9) = some (0x0015CA01, 9, []) := by decide +kernel

/-- V-R3 and V-R2. -/
theorem test_length_prefix_after_data :
    let s := { receiving with prog := { receiving.prog with rxWritten := 1400 } }
    see s (rx [0x00, 0x00, 0x03, 0xE8] 9) = some (0x00108A56, 1400, []) ∧
    see s (rx [0x00, 0x00, 0x05, 0x78] 9) = some (0x00108A02, 1400, []) := by decide +kernel

/-- V-R13, the third TimedOut, and V-R12, the first. -/
theorem test_recv_timeouts :
    (at1 { receiving with consecTo := 2, count := { receiving.count with timeout := 2 } } (.rx .timedOut)).map
      (fun t => (statusWord t, t.result, t.count.timeout)) = some (0x00008A36, 0, 3) ∧
    (at1 receiving (.rx .timedOut)).map (fun t => (statusWord t, t.count.timeout)) = some (0x00058A01, 1) := by
  decide +kernel

/-- V-R15, V-R16 and V-R17. -/
theorem test_recv_consumes_control :
    see receiving (rx (seg 0x1001 0x2001 0x0800 8192 []) 9) = some (0x00058A01, 9, []) ∧
    see receiving (rx (seg 0x1000 0x2001 0x0800 8192 []) 9) = some (0x0005CA01, 9, []) ∧
    see receiving (rx (seg 0x1000 0 0x2000 8192 []) 9) = some (0x0005CA01, 9, []) := by decide +kernel

/-- V-T7: the reply sequence. -/
theorem test_finack_server :
    see
      { receiving with
        status := { receiving.status with rxTotalValid := true }
        prog := { receiving.prog with rxWritten := 1400, rxTotal := 3000, rxExpectedSegs := 3 }
        conn := { receiving.conn with ack := 0x1579, currWindow := 2696 } }
      (rx (seg 0x1579 0x2001 0x4800 8192 []) 9) =
    some (0x00168C01, 9,
      [words [0x00002001, 0x0000157A, 0x08000A88, 0, 0, 0, 0, 0x41289FF6],
       words [0x00002002, 0x0000157A, 0x48000A88, 0, 0, 0, 0, 0xC2FC0E2F]]) := by decide +kernel

/-- V-R20. -/
theorem test_finack_client :
    see clientReceiving (rx (seg 0x2001 0x1001 0x4800 8192 []) 7) = some (0x00009202, 0, []) := by decide +kernel

/-! ### Witnesses: for each statement with hypotheses, states and operands that meet them, clause by clause -/

/-- The outcome is a next state. -/
def isNext (o : Out) : Bool :=
  match o with
  | .next _ => true
  | .fault _ => false
  | .refused _ => false

theorem exists_of_isNext {o : Out} (h : isNext o = true) : ∃ t, o = .next t := by
  cases o with
  | next t => exact ⟨t, rfl⟩
  | fault r => exact absurd h (by simp [isNext])
  | refused r => exact absurd h (by simp [isNext])

theorem at1_of_step {s t : State} {i : Input} (h : step { s with inputs := [i] } = .next t) : at1 s i = some t := by
  unfold at1
  rw [h]

/-- The whole space is lent, as at reset. -/
theorem lends_all {s : State} (h : s.lent = fresh.lent) (k : Access) (a n : Nat) (hb : a + n ≤ 4294967296) :
    Lends s k a n := by
  refine ⟨hb, fun x _ hx => ?_⟩
  cases k
  · exact ⟨⟨0, 4294967296, .read⟩, by rw [h]; decide, rfl, Nat.zero_le _, show x < 0 + 4294967296 by omega⟩
  · exact ⟨⟨0, 4294967296, .write⟩, by rw [h]; decide, rfl, Nat.zero_le _, show x < 0 + 4294967296 by omega⟩

/-- Nothing is lent. -/
theorem lends_none {s : State} (h : s.lent = []) (k : Access) (a n : Nat) (hn : 0 < n) : ¬ Lends s k a n := by
  rintro ⟨-, hx⟩
  obtain ⟨r, hr, -⟩ := hx a (Nat.le_refl a) (by omega)
  simp [h] at hr

theorem inv_fresh : EngineInv fresh := by
  constructor <;> first | decide +kernel | exact Checksum.eval_singleBitSensitive _ | exact fun h => absurd h (by decide)

theorem inv_clientUp : EngineInv clientUp := by
  constructor <;> first | decide +kernel | exact Checksum.eval_singleBitSensitive _ | exact fun h => absurd h (by decide)

theorem inv_sending100 : EngineInv sending100 := by
  constructor <;> first | decide +kernel | exact Checksum.eval_singleBitSensitive _ | exact fun h => absurd h (by decide) |
    exact fun _ => by constructor <;> decide +kernel

theorem inv_sending3000 : EngineInv sending3000 := by
  constructor <;> first | decide +kernel | exact Checksum.eval_singleBitSensitive _ | exact fun h => absurd h (by decide) |
    exact fun _ => by constructor <;> decide +kernel

theorem inv_receiving : EngineInv receiving := by
  constructor <;> first | decide +kernel | exact Checksum.eval_singleBitSensitive _ | exact fun h => absurd h (by decide) |
    exact fun _ => by constructor <;> decide +kernel

theorem inv_finalAck : EngineInv finalAck := by
  constructor <;> first | decide +kernel | exact Checksum.eval_singleBitSensitive _ | exact fun h => absurd h (by decide)

/-! #### Encodings -/

theorem witness_SealAndVerifyAgree :
    SingleBitSensitive crc32 ∧ 32 ≤ (zeros 33).length ∧
    [0, 223, 256, 263].all (fun p => decide (p < 8 * (zeros 33).length ∧ ¬ (28 ≤ p / 8 ∧ p / 8 < 32))) = true ∧
    (alter (zeros 33) 28 1).length = (zeros 33).length ∧
    (List.range 33).all (fun i => decide (¬ (i < 28 ∨ 32 ≤ i)) ||
      byteAt (alter (zeros 33) 28 1) i == byteAt (zeros 33) i) = true :=
  ⟨crc32_singleBitSensitive, by decide +kernel⟩

theorem witness_ClassifyByLengthThenControl :
    (zeros 4).length = 4 ∧ (zeros 31).length ≠ 4 ∧ (zeros 31).length ≠ 32 ∧ (zeros 33).length ≠ 32 ∧
    (hdr 0 0 0x4801 0 0).length = 32 ∧ (ctrlOf (hdr 0 0 0x4801 0 0)).getLsbD 11 = true ∧
    (ctrlOf (hdr 0 0 0x4801 0 0)).getLsbD 14 = true ∧ ctrlOf (hdr 0 0 0x0800 0 0) = 0x0800#16 ∧
    ctrlOf (hdr 0 0 0x2000 0 0) = 0x2000#16 ∧ ctrlOf (hdr 0 0 0x2800 0 0) = 0x2800#16 ∧
    (ctrlOf (hdr 0 0 0x0801 0 0)).getLsbD 14 = false ∧ ctrlOf (hdr 0 0 0x0801 0 0) ≠ 0x0800#16 ∧
    ctrlOf (hdr 0 0 0x0801 0 0) ≠ 0x2000#16 ∧ ctrlOf (hdr 0 0 0x0801 0 0) ≠ 0x2800#16 := by decide +kernel

/-! #### Steps, issue and the command port -/

theorem witness_StepIssuesTheDecodedCommand :
    clientUp.status.phase = .idle ∧
    takeNext .idle [.rx .timedOut, .regWrite 0x20 4 0x105] = some (.regWrite 0x20 4 0x105, [.rx .timedOut]) ∧
    decode 0x105#32 = .ok .send ∧ decodeTableWord 32 0x13 = some .classify := by decide

theorem witness_StepTakesOneEventInAWaitPhase :
    receiving.status.phase ≠ .idle ∧
    { receiving with inputs := [.rx .timedOut, .hwReset] }.inputs = Input.rx .timedOut :: [.hwReset] := by decide

theorem witness_IdleTakesNoRxEvent :
    fresh.status.phase = .idle ∧ (∀ i ∈ [Input.rx .timedOut], i.isRx = true) ∧
    [Input.rx .timedOut, .regRead 0 4] = [Input.rx .timedOut] ++ .regRead 0 4 :: [] ∧
    (Input.regRead 0 4).isRx = false := by decide

theorem witness_RejectedCommandsLeaveTheEngine :
    fresh.status.phase = .idle ∧ takeNext .idle [.regWrite 0x20 4 0x14] = some (.regWrite 0x20 4 0x14, []) ∧
    decode 0x14#32 = .error (.reservedOpcode 0x14#8) ∧ decode 0x08#32 = .error (.reservedOpcode 0x08#8) ∧
    accepting.status.phase ≠ .idle ∧
    { accepting with inputs := [.regWrite 0x20 4 5] }.inputs = Input.regWrite 0x20 4 5 :: [] := by decide

theorem witness_PreconditionFailureChangesNothingElse :
    listening.status.connState ≠ .invalid ∧ fresh.status.connState ≠ .listen ∧
    fresh.status.connState ≠ .established ∧
    { fresh with cmd := { fresh.cmd with arg1L := 31 } }.cmd.arg1L.toNat < 32 := by decide

/-! #### The register space -/

theorem witness_RegisterMapReads :
    takeNext fresh.status.phase [.regRead 0x7C 4] = some (.regRead 0x7C 4, []) ∧
    takeNext receiving.status.phase [.regRead 0xFC 4] = some (.regRead 0xFC 4, []) ∧ 0xFC % 4 = 0 ∧ 0xFC ≤ 0xFC ∧
    takeNext receiving.status.phase [.regRead 0x1C 4] = some (.regRead 0x1C 4, []) := by decide

theorem witness_RegisterWritesStoreClearOrAreIgnored :
    takeNext receiving.status.phase [.regWrite 0x30 4 0x600E] = some (.regWrite 0x30 4 0x600E, []) ∧
    takeNext fresh.status.phase [.regWrite 0x24 4 1] = some (.regWrite 0x24 4 1, []) ∧
    takeNext fresh.status.phase [.regWrite 0x28 4 1] = some (.regWrite 0x28 4 1, []) ∧
    takeNext fresh.status.phase [.regWrite 0x34 4 1] = some (.regWrite 0x34 4 1, []) ∧
    takeNext fresh.status.phase [.regWrite 0x38 4 1] = some (.regWrite 0x38 4 1, []) ∧ 0x38 % 4 = 0 ∧
    takeNext fresh.status.phase [.regWrite 0xFC 4 1] = some (.regWrite 0xFC 4 1, []) := by decide

theorem witness_MisfitRegisterAccessIsRefused :
    (2 ≠ 4 ∨ 0x20 % 4 ≠ 0 ∨ 0xFC < 0x20) ∧ (4 ≠ 4 ∨ 0x22 % 4 ≠ 0 ∨ 0xFC < 0x22) ∧
    (4 ≠ 4 ∨ 0x100 % 4 ≠ 0 ∨ 0xFC < 0x100) ∧
    takeNext fresh.status.phase [.regWrite 0x20 2 1] = some (.regWrite 0x20 2 1, []) ∧
    takeNext fresh.status.phase [.regRead 0x100 4] = some (.regRead 0x100 4, []) := by decide

theorem witness_InterruptFollowsEnableAndDone :
    (1#32).getLsbD 0 = true ∧ (2#32).getLsbD 0 = false ∧ (2#32).getLsbD 1 = true ∧
    irq { clientUp with irqEn := true } = true := by decide

/-- The first clause at the last byte of the range, the third just past it. -/
theorem witness_HostAccessToABorrowedRangeHasNoMove :
    Memory.wf sending100.mem = true ∧ sending100.status.phase ≠ .idle ∧ sending100.cmd.op = 0x05#8 ∧
    takeNext sending100.status.phase [.memWrite 0x8063 [1]] = some (.memWrite 0x8063 [1], []) ∧
    (∃ y, 0x8063 ≤ y ∧ y < 0x8063 + 1 ∧ sending100.snd.src.toNat ≤ y ∧
      y < sending100.snd.src.toNat + sending100.snd.len.toNat) ∧
    (¬ ∃ y, 0x8064 ≤ y ∧ y < 0x8064 + 1 ∧ sending100.snd.src.toNat ≤ y ∧
      y < sending100.snd.src.toNat + sending100.snd.len.toNat) ∧
    sending100.cmd.op ≠ 0x06#8 ∧ receiving.status.phase ≠ .idle ∧ receiving.cmd.op = 0x06#8 ∧
    takeNext receiving.status.phase [.memRead 0x9FFF 1] = some (.memRead 0x9FFF 1, []) ∧
    (∃ y, 0x9FFF ≤ y ∧ y < 0x9FFF + 1 ∧ receiving.rcv.dst.toNat ≤ y ∧
      y < receiving.rcv.dst.toNat + receiving.rcv.max.toNat) := by
  refine ⟨by decide, by decide, by decide, by decide, ⟨0x8063, by decide⟩, ?_, by decide, by decide, by decide,
    by decide, ⟨0x9FFF, by decide⟩⟩
  rintro ⟨y, h1, -, -, h4⟩
  have h5 : sending100.snd.src.toNat + sending100.snd.len.toNat = 0x8064 := by decide
  omega

theorem witness_HardwareResetSetsEveryRow :
    takeNext sending100.status.phase [.hwReset] = some (.hwReset, []) := by decide

/-! #### Commands -/

theorem witness_ListenAndConnect :
    fresh.status.connState = .invalid ∧ listening.status.connState ≠ .invalid := by decide

theorem witness_AcceptWaitsForASyn :
    listening.status.connState = .listen ∧ fresh.status.connState ≠ .listen := by decide

/-- Clauses 1 and 2 of SHUTDOWN, and RECV. -/
theorem witness_ShutdownAndRecv :
    clientUp.status.connState = .established ∧ clientUp.status.finSeen = false ∧
    closing.status.connState ≠ .established ∧
    { clientUp with status := { clientUp.status with finSeen := true } }.status.finSeen = true := by decide

/-- At the top of the address space. -/
theorem witness_BuildHeaderStoresASealedHeader :
    let s := { fresh with cmd := { fresh.cmd with arg1L := 0xFFFFFFE0 } }
    Memory.wf s.mem = true ∧ Lends s .write s.cmd.arg1L.toNat 32 :=
  ⟨by decide, lends_all rfl _ _ _ (by decide)⟩

theorem witness_SealStoresTheChecksum :
    let s := { fresh with cmd := { fresh.cmd with arg0L := 0x100, arg1L := 32 } }
    Memory.wf s.mem = true ∧ 32 ≤ s.cmd.arg1L.toNat ∧ Lends s .read s.cmd.arg0L.toNat s.cmd.arg1L.toNat ∧
      Lends s .write (s.cmd.arg0L.toNat + 28) 4 ∧ (31#32 : Word).toNat < 32 :=
  ⟨by decide, by decide, lends_all rfl _ _ _ (by decide), lends_all rfl _ _ _ (by decide), by decide⟩

/-- Both clauses: V2's bytes, and V2's bytes with one bit flipped. -/
theorem witness_VerifyReportsTheChecksum :
    let s := { fresh with mem := v2 0x200, cmd := { fresh.cmd with arg0L := 0x200, arg1L := 32 } }
    let s' := { s with mem := (v2 0x200).set 0x203 0x01 }
    32 ≤ s.cmd.arg1L.toNat ∧ Lends s .read s.cmd.arg0L.toNat s.cmd.arg1L.toNat ∧
      Lends s' .read s'.cmd.arg0L.toNat s'.cmd.arg1L.toNat ∧
      (let b := s.mem.readBytes s.cmd.arg0L.toNat s.cmd.arg1L.toNat
       csumOf b = s.cfg.checksum.eval (csumInput b)) ∧
      (let b := s'.mem.readBytes s'.cmd.arg0L.toNat s'.cmd.arg1L.toNat
       csumOf b ≠ s'.cfg.checksum.eval (csumInput b)) :=
  ⟨by decide, lends_all rfl _ _ _ (by decide), lends_all rfl _ _ _ (by decide), by decide +kernel, by decide +kernel⟩

/-- The control field CLASSIFY reads in the state of `classOf`. -/
def classCtrl (c : Word) : Half :=
  rdBe16 ((Memory.writeBytes [] 0x308 (be16 (c.setWidth 16))).readBytes (0x300 + 8) 2) 0

theorem witness_ClassifyReportsTheClass :
    (4#32 : Word) = 4#32 ∧ (33#32 : Word) ≠ 4#32 ∧ (33#32 : Word) ≠ 32#32 ∧ Lends fresh .read (0x300 + 8) 2 ∧
    classCtrl 0x4801 &&& 0x4800#16 = 0x4800#16 ∧ classCtrl 0x0800 = 0x0800#16 ∧ classCtrl 0x2000 = 0x2000#16 ∧
    classCtrl 0x2800 = 0x2800#16 ∧ classCtrl 0x0801 &&& 0x4800#16 ≠ 0x4800#16 ∧ classCtrl 0x0801 ≠ 0x0800#16 ∧
    classCtrl 0x0801 ≠ 0x2000#16 ∧ classCtrl 0x0801 ≠ 0x2800#16 :=
  ⟨rfl, by decide, by decide, lends_all rfl _ _ _ (by decide), by decide +kernel⟩

/-- A SEND that reaches the top of the address space, a zero peer window, and `L = 0`. -/
theorem witness_SendTransmitsPrefixAndFirstRound :
    let s := { clientUp with cmd := { clientUp.cmd with arg0L := 0xFFFFFFFF, arg1L := 1 } }
    let z := { s with conn := { s.conn with peerWindow := 0 } }
    s.cfg.wf = true ∧ s.status.connState = .established ∧ 1 ≤ s.conn.cwnd.toNat ∧ 0 < s.cmd.arg1L.toNat ∧
      Lends s .read s.cmd.arg0L.toNat
        (min (if s.conn.peerWindow = 0 then 1 else s.conn.peerWindow.toNat)
          (min s.conn.cwnd.toNat s.cmd.arg1L.toNat)) ∧
      z.conn.peerWindow = 0 ∧ clientUp.cmd.arg1L = 0#32 :=
  ⟨by decide, by decide, by decide, by decide, lends_all rfl _ _ _ (by decide), by decide, by decide⟩

/-- Every command answers a next state in some state. -/
theorem witness_CommandFrames :
    isNext (exec .openConn closing) = true ∧ isNext (exec .connect fresh) = true ∧
    isNext (exec .listen fresh) = true ∧ isNext (exec .accept listening) = true ∧
    isNext (exec .send { clientUp with cmd := { clientUp.cmd with arg1L := 10 } }) = true ∧
    isNext (exec .recv serverUp) = true ∧ isNext (exec .shutdown clientUp) = true ∧
    isNext (exec .buildHeader fresh) = true ∧
    isNext (exec .sealSegment { fresh with cmd := { fresh.cmd with arg1L := 32 } }) = true ∧
    isNext (exec .verify { fresh with cmd := { fresh.cmd with arg1L := 32 } }) = true ∧
    isNext (exec .classify { fresh with cmd := { fresh.cmd with arg1L := 32 } }) = true := by decide +kernel

/-- Nothing lent, clause by clause; for SEAL's store, the range lent for reading only. -/
theorem witness_UnlentAccessHasNoTransition :
    let s := { clientUp with lent := [], cmd := { clientUp.cmd with arg1L := 32 } }
    let r := { s with lent := [⟨0, 32, .read⟩] }
    ¬ Lends s .write s.cmd.arg1L.toNat 32 ∧ 32 ≤ s.cmd.arg1L.toNat ∧
      ¬ Lends s .read s.cmd.arg0L.toNat s.cmd.arg1L.toNat ∧ Lends r .read r.cmd.arg0L.toNat r.cmd.arg1L.toNat ∧
      ¬ Lends r .write (r.cmd.arg0L.toNat + 28) 4 ∧ s.cmd.arg1L = 32#32 ∧ ¬ Lends s .read (s.cmd.arg0L.toNat + 8) 2 ∧
      s.cfg.wf = true ∧ s.status.connState = .established ∧ 1 ≤ s.conn.cwnd.toNat ∧ s.cmd.arg1L ≠ 0#32 ∧
      ¬ Lends s .read s.cmd.arg0L.toNat
        (min (if s.conn.peerWindow = 0 then 1 else s.conn.peerWindow.toNat)
          (min s.conn.cwnd.toNat s.cmd.arg1L.toNat)) := by
  refine ⟨lends_none rfl _ _ _ (by decide), by decide, lends_none rfl _ _ _ (by decide), ⟨by decide, ?_⟩, ?_,
    by decide, lends_none rfl _ _ _ (by decide), by decide, by decide, by decide, by decide,
    lends_none rfl _ _ _ (by decide)⟩
  · intro x _ hx
    have h : ((32#32 : Word)).toNat = 32 := by decide
    exact ⟨⟨0, 32, .read⟩, by simp, rfl, Nat.zero_le _, by simpa [clientUp, fresh, State.resetWith] using hx⟩
  · rintro ⟨-, hx⟩
    obtain ⟨q, hq, hk, -⟩ := hx _ (Nat.le_refl _) (by omega)
    simp only [List.mem_singleton] at hq
    subst hq
    exact absurd hk (by decide)

/-! #### Handshake and teardown events -/

/-- The three clauses, each with a verified and an altered segment. -/
theorem witness_HandshakeSegmentsEstablish :
    let b := seg 0x2000 0x1001 0x2800 4000 []
    let c := seg 0x1000 0 0x2000 8192 []
    let d := seg 0x1001 0x2001 0x0800 8192 []
    vec.wf = true ∧ connecting.status.phase = .connWaitSynack ∧ classify b = .synack ∧
    ackOf b = connecting.conn.seq + 1 ∧ verifyWith crc32 b = true ∧ verifyWith crc32 (alter b 20 1) = false ∧
    classify (alter b 20 1) = .synack ∧ ackOf (alter b 20 1) = connecting.conn.seq + 1 ∧
    accepting.status.phase = .accWaitSyn ∧ classify c = .syn ∧ verifyWith crc32 c = true ∧
    classify (alter c 20 1) = .syn ∧ verifyWith crc32 (alter c 20 1) = false ∧
    acceptingAck.status.phase = .accWaitAck ∧ classify d = .ack ∧ ackOf d = acceptingAck.conn.seq + 1 ∧
    seqOf d = acceptingAck.conn.ack ∧ verifyWith crc32 d = true ∧ verifyWith crc32 (alter d 20 1) = false := by
  decide +kernel

/-- Every awaiting phase, with a datagram of another class. -/
theorem witness_OtherEventsFailTheHandshakeAndTeardown :
    [connecting, accepting, acceptingAck, closing, closingFin, finalAck].map (fun s => awaited s.status.phase) =
      [some .synack, some .syn, some .ack, some .ack, some .finack, some .ack] ∧
    classify (zeros 4) = .pfx ∧ (zeros 4).length ≤ vec.maxDgram.toNat ∧
    finalAck.status.phase = .waitFinalAck ∧ closing.status.phase ≠ .accWaitSyn ∧
    accepting.status.phase = .accWaitSyn := by decide +kernel

/-- The SEQUENCE_MISMATCH clauses of HandshakeSegmentsEstablish and TeardownSegmentsAdvanceToClosed. -/
theorem witness_HandshakeAndTeardownMismatch :
    let b := seg 0x2000 0x1002 0x2800 8192 []
    let c := seg 0x1001 0x2002 0x0800 8192 []
    let d := seg 0x2001 0x1001 0x0800 8192 []
    let e := seg 0x157A 0x2002 0x0800 8192 []
    connecting.status.phase = .connWaitSynack ∧ classify b = .synack ∧ ackOf b ≠ connecting.conn.seq + 1 ∧
    acceptingAck.status.phase = .accWaitAck ∧ classify c = .ack ∧
    (ackOf c ≠ acceptingAck.conn.seq + 1 ∨ seqOf c ≠ acceptingAck.conn.ack) ∧
    closing.status.phase = .shdWaitAck ∧ classify d = .ack ∧
    (ackOf d ≠ closing.conn.seq ∨ seqOf d ≠ closing.conn.ack) ∧
    finalAck.status.phase = .waitFinalAck ∧ classify e = .ack ∧
    (ackOf e ≠ finalAck.conn.seq + 1 ∨ seqOf e ≠ finalAck.conn.ack) := by decide +kernel

theorem witness_TeardownSegmentsAdvanceToClosed :
    let b := seg 0x2001 0x1002 0x0800 8192 []
    let c := seg 0x2002 0x1002 0x4800 8192 []
    let d := seg 0x157A 0x2003 0x0800 8192 []
    closing.status.phase = .shdWaitAck ∧ classify b = .ack ∧ ackOf b = closing.conn.seq ∧
    seqOf b = closing.conn.ack ∧ closingFin.status.phase = .shdWaitFin ∧ classify c = .finack ∧
    finalAck.status.phase = .waitFinalAck ∧ classify d = .ack ∧ ackOf d = finalAck.conn.seq + 1 ∧
    seqOf d = finalAck.conn.ack := by decide +kernel

/-! #### Send-engine events -/

/-- Every byte confirmed, and one byte left. -/
theorem witness_RoundStartCompletesOrTransmits :
    let s := { sending100 with conn := { sending100.conn with seq := 0x1065 } }
    let u := { sending100 with conn := { sending100.conn with seq := 0x1064 } }
    sending100.cfg.wf = true ∧ 1 ≤ sending100.conn.cwnd.toNat ∧ s.snd.maxOff.toNat ≤ s.snd.len.toNat ∧
      (s.conn.seq - s.snd.base).toNat = s.snd.len.toNat ∧ (u.conn.seq - u.snd.base).toNat < u.snd.len.toNat ∧
      Lends u .read (u.snd.src.toNat + (u.conn.seq - u.snd.base).toNat)
        (min (if u.conn.peerWindow = 0 then 1 else u.conn.peerWindow.toNat)
          (min u.conn.cwnd.toNat (u.snd.len.toNat - (u.conn.seq - u.snd.base).toNat))) :=
  ⟨by decide, by decide, by decide, by decide, by decide, lends_all rfl _ _ _ (by decide)⟩

/-- At the retry bound, one below it, and without a bound. -/
theorem witness_SendTimeoutCollapsesTheWindow :
    sending100.status.phase = .sndWaitAck ∧ vec.maxRetries ≠ 0 ∧
    vec.maxRetries.toNat ≤ min ((2#32 : Word).toNat + 1) 4294967295 ∧
    min ((1#32 : Word).toNat + 1) 4294967295 < vec.maxRetries.toNat ∧ { vec with maxRetries := 0 }.maxRetries = 0 ∧
    { vec with maxRetries := 0 }.wf = true := by decide

theorem witness_SendIgnoresOtherClasses :
    sending100.status.phase = .sndWaitAck ∧ (zeros 1432).length ≤ sending100.cfg.maxDgram.toNat ∧
    classify (zeros 1432) ≠ .ack := by decide +kernel

/-- In slow start, and in congestion avoidance at `CWND = SSTHRESH`. -/
theorem witness_InOrderAckConfirmsAndGrows :
    let b := seg 0x2001 0x1065 0x0800 8192 []
    sending100.cfg.wf = true ∧ sending100.status.phase = .sndWaitAck ∧ classify b = .ack ∧
    verifyWith sending100.cfg.checksum.eval b = true ∧
    ackOf b = sending100.snd.roundSeq +
      BitVec.ofNat 32 (min ((sending100.snd.waitK.toNat + 1) * sending100.cfg.mss.toNat)
        sending100.snd.roundLen.toNat) ∧
    sending100.conn.cwnd.toNat < sending100.conn.ssthresh.toNat ∧ ¬ ((4200#32 : Word).toNat < (4200#32 : Word).toNat) := by
  decide +kernel

/-- An altered ACK; an ack at the end of what was sent; the ack of SEQ_NUMBER itself, and one past the end. -/
theorem witness_OutOfOrderAckCountsAsDuplicate :
    let b := seg 0x2001 0x1BB9 0x0800 8192 []
    let s := sending3000
    let endK := s.snd.roundSeq +
      BitVec.ofNat 32 (min ((s.snd.waitK.toNat + 1) * s.cfg.mss.toNat) s.snd.roundLen.toNat)
    s.cfg.wf = true ∧ s.status.phase = .sndWaitAck ∧ classify b = .ack ∧ verifyWith crc32 b = true ∧
    verifyWith crc32 (alter b 0 1) = false ∧ classify (alter b 0 1) = .ack ∧ ackOf b ≠ endK ∧
    (s.conn.seq - s.snd.base).toNat < (ackOf b - s.snd.base).toNat ∧
    (ackOf b - s.snd.base).toNat = s.snd.maxOff.toNat ∧ s.snd.recValid = false ∧
    (0x1001#32 : Word) ≠ endK ∧ ¬ ((s.conn.seq - s.snd.base).toNat < ((0x1001#32 : Word) - s.snd.base).toNat) ∧
    (0x1BBA#32 : Word) ≠ endK ∧ ¬ (((0x1BBA#32 : Word) - s.snd.base).toNat ≤ s.snd.maxOff.toNat) := by decide +kernel

theorem witness_AdvanceWaitsOrEndsTheRound :
    let s := { sending3000 with snd := { sending3000.snd with waitK := 2 } }
    sending3000.snd.waitK + 1 ≠ sending3000.snd.roundN ∧ s.snd.waitK + 1 = s.snd.roundN ∧ s.snd.roundDup = 0 ∧
    { s.snd with roundDup := 1 }.roundDup ≠ 0 := by decide

/-! #### Receive-engine events -/

/-- Each clause, with totals at the edges of the others: 4097 and 4096 about `rcv_max`, 5, 6 and 7 about RX_WRITTEN. -/
theorem witness_PrefixAnnouncesTheTotal :
    let s := { receiving with prog := { receiving.prog with rxWritten := 6 } }
    s.cfg.wf = true ∧ s.status.phase = .rcvWait ∧ s.status.rxTotalValid = false ∧
    { s.status with rxTotalValid := true }.rxTotalValid = true ∧ [0x00#8, 0x00#8, 0x10#8, 0x01#8].length = 4 ∧
    s.rcv.max.toNat < (rdBe32 [0x00, 0x00, 0x10, 0x01] 0).toNat ∧
    (rdBe32 [0x00, 0x00, 0x10, 0x00] 0).toNat ≤ s.rcv.max.toNat ∧
    s.prog.rxWritten.toNat < (rdBe32 [0x00, 0x00, 0x10, 0x00] 0).toNat ∧
    (rdBe32 [0, 0, 0, 5] 0).toNat < s.prog.rxWritten.toNat ∧ s.prog.rxWritten = rdBe32 [0, 0, 0, 6] 0 ∧
    s.prog.rxWritten.toNat < (rdBe32 [0, 0, 0, 7] 0).toNat := by decide +kernel

theorem witness_FinAckEndsRecvByRole :
    receiving.cfg.wf = true ∧ receiving.status.phase = .rcvWait ∧ classify (seg 0x1001 0x2001 0x4800 8192 []) = .finack ∧
    receiving.status.role = .server ∧ clientReceiving.status.phase = .rcvWait ∧
    clientReceiving.status.role = .client := by decide +kernel

theorem witness_RecvConsumesControlSegments :
    let b := seg 0x1001 0x2001 0x0800 8192 []
    let c := seg 0x1000 0x2001 0x0800 8192 []
    receiving.cfg.wf = true ∧ receiving.status.phase = .rcvWait ∧ classify b = .ack ∧ seqOf b = receiving.conn.ack ∧
    ackOf b = receiving.conn.seq ∧ classify c = .ack ∧ (seqOf c ≠ receiving.conn.ack ∨ ackOf c ≠ receiving.conn.seq) ∧
    classify (seg 0 0 0x2000 0 []) = .syn ∧ classify (seg 0 0 0x2800 0 []) = .synack ∧
    classify (seg 0 0 0x0801 0 []) = .ctrlOther := by decide +kernel

/-- One byte that fills the buffer and the announced total; and one byte with no total known. -/
theorem witness_InOrderDataIsWrittenAndAcknowledged :
    let s : State :=
      { receiving with
        rcv := { dst := 0xFFFFFFFF, max := 1 }
        status := { receiving.status with rxTotalValid := true }
        prog := { receiving.prog with rxTotal := 1, rxExpectedSegs := 1 } }
    let b := seg 0x1001 0x2001 0x0000 8192 [0x41]
    s.cfg.wf = true ∧ Memory.wf s.mem = true ∧ s.status.phase = .rcvWait ∧ 33 ≤ b.length ∧
      b.length ≤ 32 + s.cfg.mss.toNat ∧ verifyWith s.cfg.checksum.eval b = true ∧ seqOf b = s.conn.ack ∧
      s.prog.rxWritten.toNat + (b.length - 32) ≤ s.rcv.max.toNat ∧ s.status.rxTotalValid = true ∧
      s.prog.rxWritten.toNat + (b.length - 32) = s.prog.rxTotal.toNat ∧
      Lends s .write (s.rcv.dst.toNat + s.prog.rxWritten.toNat) (b.length - 32) ∧
      receiving.status.rxTotalValid = false ∧
      receiving.prog.rxWritten.toNat + (b.length - 32) ≤ receiving.rcv.max.toNat :=
  ⟨by decide, by decide, by decide, by decide +kernel, by decide +kernel, by decide +kernel, by decide +kernel,
    by decide +kernel, by decide, by decide +kernel, lends_all rfl _ _ _ (by decide +kernel), by decide,
    by decide +kernel⟩

/-- Not well sized; well sized and altered; well sized, verified and out of order; one byte too long for the buffer. -/
theorem witness_RejectedDataIsAnsweredWithADuplicateAck :
    let b := seg 0x1001 0x2001 0x0000 8192 [0x41]
    let c := seg 0x1002 0x2001 0x0000 8192 [0x41]
    receiving.status.phase = .rcvWait ∧ (zeros 31).length ≤ receiving.cfg.maxDgram.toNat ∧ classify (zeros 31) = .data ∧
    ¬ (33 ≤ (zeros 31).length) ∧ classify (alter b 32 1) = .data ∧ 33 ≤ (alter b 32 1).length ∧
    verifyWith crc32 (alter b 32 1) = false ∧ classify c = .data ∧ verifyWith crc32 c = true ∧
    seqOf c ≠ receiving.conn.ack ∧ ¬ ((0#32 : Word).toNat + (b.length - 32) ≤ (0#32 : Word).toNat) := by decide +kernel

theorem witness_RecvTimeoutCountsThenFails :
    receiving.status.phase = .rcvWait ∧ receiving.cfg.maxRetries ≠ 0 ∧
    receiving.cfg.maxRetries.toNat ≤ min ((2#32 : Word).toNat + 1) 4294967295 ∧
    min ((1#32 : Word).toNat + 1) 4294967295 < receiving.cfg.maxRetries.toNat := by decide

/-! #### Rules of the whole machine -/

theorem witness_ResetMeetsTheEngineInvariant : vec.wf = true := by decide

/-- A step of a SEND, of a RECV and of the reply sequence, each from a state with the invariant. -/
theorem witness_EveryStepKeepsTheEngineInvariant :
    (∃ s t, EngineInv s ∧ s.status.phase = .sndWaitAck ∧ step s = .next t) ∧
    (∃ s t, EngineInv s ∧ s.status.phase = .rcvWait ∧ step s = .next t) ∧
    (∃ s t, EngineInv s ∧ s.status.phase = .waitFinalAck ∧ step s = .next t) := by
  refine ⟨⟨sending100, sending100, inv_sending100, by decide, by rfl⟩, ?_, ?_⟩
  · exact ⟨receiving, receiving, inv_receiving, by decide, by rfl⟩
  · exact ⟨finalAck, finalAck, inv_finalAck, by decide, by rfl⟩

/-- The same with an event to take: the invariant does not see the input list. -/
theorem inv_inputs {s : State} (l : List Input) (h : EngineInv s) : EngineInv { s with inputs := l } :=
  { params := h.params, checksum := h.checksum, memory := h.memory, cwndPos := h.cwndPos, ssthreshPos := h.ssthreshPos,
    phaseConn := h.phaseConn, phaseOp := h.phaseOp, rxbuf := h.rxbuf, listenRole := h.listenRole,
    connectRole := h.connectRole, doneIdle := h.doneIdle, errIdle := h.errIdle, errCoded := h.errCoded,
    noAllocationFailure := h.noAllocationFailure, finSeen := h.finSeen, freshWindow := h.freshWindow,
    expectedSegs := h.expectedSegs, noTotal := h.noTotal, recvBuffer := h.recvBuffer, retries := h.retries,
    sending := fun hp =>
      let i := h.sending hp
      { roundPos := i.roundPos, roundSmall := i.roundSmall, roundCount := i.roundCount, waiting := i.waiting,
        dups := i.dups, transmitted := i.transmitted, insidePayload := i.insidePayload, seqLow := i.seqLow,
        seqHigh := i.seqHigh, recorded := i.recorded, started := i.started, delivered := i.delivered },
    receiving := fun hp =>
      let i := h.receiving hp
      { inBuffer := i.inBuffer, inTotal := i.inTotal, totalFits := i.totalFits, window := i.window } }

/-- A step that transmits: the SYN of CONNECT, and a retransmitted round. -/
theorem witness_EveryTransmittedDatagramIsSealedAndForThePeer :
    (∃ s t, EngineInv s ∧ step s = .next t ∧ t.tx.length = s.tx.length + 1) ∧
    (∃ s t, EngineInv s ∧ s.status.phase = .sndWaitAck ∧ step s = .next t ∧ t.tx.length = s.tx.length + 1) := by
  constructor
  · obtain ⟨t, ht⟩ := exists_of_isNext
      (show isNext (step { fresh with inputs := [.regWrite 0x20 4 2] }) = true by decide +kernel)
    refine ⟨_, t, inv_inputs [.regWrite 0x20 4 2] inv_fresh, ht, ?_⟩
    have : (at1 fresh (.regWrite 0x20 4 2)).map (fun t => t.tx.length) = some 1 := by decide +kernel
    rw [at1_of_step ht] at this
    exact Option.some.inj this
  · obtain ⟨t, ht⟩ := exists_of_isNext
      (show isNext (step { sending100 with inputs := [.rx .timedOut] }) = true by decide +kernel)
    refine ⟨_, t, inv_inputs [.rx .timedOut] inv_sending100, by decide, ht, ?_⟩
    have : (at1 sending100 (.rx .timedOut)).map (fun t => t.tx.length) = some 1 := by decide +kernel
    rw [at1_of_step ht] at this
    exact Option.some.inj this

/-- One data byte, 0x41, for `receiving`. -/
def oneByte : Input := rx (seg 0x1001 0x2001 0x0000 8192 [0x41]) 9

/-- RECV writes the byte at 0x9000. -/
theorem witness_EngineWritesOnlyLentBytes :
    ∃ t, Memory.wf receiving.mem = true ∧
      takeNext receiving.status.phase { receiving with inputs := [oneByte] }.inputs = some (oneByte, []) ∧
      (∀ a bs, oneByte ≠ .memWrite a bs) ∧ step { receiving with inputs := [oneByte] } = .next t ∧
      t.mem.get 0x9000 ≠ receiving.mem.get 0x9000 := by
  obtain ⟨t, ht⟩ := exists_of_isNext
    (show isNext (step { receiving with inputs := [oneByte] }) = true by decide +kernel)
  refine ⟨t, by decide, by rfl, fun a bs h => by simp [oneByte, rx] at h, ht, ?_⟩
  have h1 : (at1 receiving oneByte).map (fun t => t.mem.get 0x9000) = some 0x41 := by decide +kernel
  rw [at1_of_step ht] at h1
  have h2 : t.mem.get 0x9000 = 0x41 := by simpa using h1
  rw [h2]
  decide

/-- VERIFY of lent bytes 0x200 to 0x21F, with a byte outside them that differs. -/
theorem witness_EngineReadsOnlyLentBytes :
    ∃ s t, s.lent = [⟨0x200, 32, .read⟩] ∧ Memory.wf s.mem = true ∧ Memory.wf ((v2 0x200).set 0x100 1) = true ∧
      (∀ x, (∃ r ∈ s.lent, r.kind = .read ∧ r.base ≤ x ∧ x < r.base + r.len) →
        Memory.get ((v2 0x200).set 0x100 1) x = s.mem.get x) ∧ step s = .next t := by
  let s : State :=
    { fresh with
      mem := v2 0x200, lent := [⟨0x200, 32, .read⟩], arg0 := 0x200, arg1 := 32, inputs := [.regWrite 0x20 4 0x12] }
  obtain ⟨t, ht⟩ := exists_of_isNext (show isNext (step s) = true by decide +kernel)
  refine ⟨s, t, rfl, by decide +kernel, by decide +kernel, ?_, ht⟩
  rintro x ⟨r, hr, -, hl, hh⟩
  have hr' : r = ⟨0x200, 32, .read⟩ := by simpa [s] using hr
  subst hr'
  have hall : ∀ i < 32, Memory.get ((v2 0x200).set 0x100 1) (0x200 + i) = (v2 0x200).get (0x200 + i) := by
    decide +kernel
  simp only at hl hh
  have := hall (x - 0x200) (by omega)
  rwa [show 0x200 + (x - 0x200) = x by omega] at this

theorem witness_OnlyEngineEventsChangeTheEngine :
    ∃ t, takeNext receiving.status.phase [Input.regWrite 0x20 4 5] = some (.regWrite 0x20 4 5, []) ∧
      step { receiving with inputs := [.regWrite 0x20 4 5] } = .next t ∧ (Input.regWrite 0x20 4 5).isRx = false ∧
      Input.regWrite 0x20 4 5 ≠ .hwReset ∧ receiving.status.phase ≠ .idle := by
  obtain ⟨t, ht⟩ := exists_of_isNext
    (show isNext (step { receiving with inputs := [.regWrite 0x20 4 5] }) = true by decide +kernel)
  exact ⟨t, by decide, ht, by decide, by decide, by decide⟩

/-- SEND in Invalid fails its precondition. -/
theorem witness_FailedCommandLeavesTheConnectionState :
    ∃ s t, EngineInv s ∧ step s = .next t ∧ t.status.err = true := by
  obtain ⟨t, ht⟩ := exists_of_isNext
    (show isNext (step { fresh with inputs := [.regWrite 0x20 4 5] }) = true by decide +kernel)
  refine ⟨_, t, inv_inputs [.regWrite 0x20 4 5] inv_fresh, ht, ?_⟩
  have : (at1 fresh (.regWrite 0x20 4 5)).map (fun t => t.status.err) = some true := by decide +kernel
  rw [at1_of_step ht] at this
  simpa using this

/-- A TimedOut in SND_WAIT_ACK, reset, and OPEN each move CWND. -/
theorem witness_OnlyTheSendEngineMovesTheCongestionWindow :
    (at1 sending100 (.rx .timedOut)).map (fun t => t.conn.cwnd) = some 1400 ∧ sending100.conn.cwnd = 4200 ∧
    (at1 { sending100 with conn := { sending100.conn with cwnd := 1 } } .hwReset).map (fun t => t.conn.cwnd) =
      some 4200 ∧
    (issueOn { clientUp with conn := { clientUp.conn with cwnd := 1 } } 0 0 1).map (fun t => t.conn.cwnd) =
      some 4200 := by decide +kernel

theorem witness_ConfirmedOffsetNeverDecreases :
    ∃ t, EngineInv sending100 ∧ sending100.status.phase = .sndWaitAck ∧
      rxEvent (.datagram (seg 0x2001 0x1065 0x0800 8192 []) 7) sending100 = .next t := by
  obtain ⟨t, ht⟩ := exists_of_isNext
    (show isNext (rxEvent (.datagram (seg 0x2001 0x1065 0x0800 8192 []) 7) sending100) = true by decide +kernel)
  exact ⟨t, inv_sending100, by decide, ht⟩

theorem witness_RecvAppendsInOrder :
    ∃ t, EngineInv receiving ∧ receiving.status.phase = .rcvWait ∧
      rxEvent (.datagram (seg 0x1001 0x2001 0x0000 8192 [0x41]) 9) receiving = .next t ∧
      t.status.phase ≠ .waitFinalAck := by
  obtain ⟨t, ht⟩ := exists_of_isNext
    (show isNext (rxEvent (.datagram (seg 0x1001 0x2001 0x0000 8192 [0x41]) 9) receiving) = true by decide +kernel)
  refine ⟨t, inv_receiving, by decide, ht, ?_⟩
  have h : (match rxEvent (.datagram (seg 0x1001 0x2001 0x0000 8192 [0x41]) 9) receiving with
      | .next t => decide (t.status.phase = .rcvWait)
      | .fault _ => false
      | .refused _ => false) = true := by decide +kernel
  rw [ht] at h
  intro hp
  simp [hp] at h

/-! #### Two engines -/

/-- R277: of what a SEND of no bytes transmits, the prefix, all is in flight toward the peer and none toward another
handle. -/
theorem test_sent_toward_the_peer_only :
    (issueOn clientUp 0x8000 0 5).map (fun t => (sentTo 7 clientUp t, sentTo 8 clientUp t)) =
      some ([[0x00, 0x00, 0x00, 0x00]], []) := by decide +kernel

theorem witness_HandshakeEstablishesBothEnds :
    fresh.cfg.wf = true ∧ listening.cfg.wf = true ∧ fresh.cfg.checksum = listening.cfg.checksum ∧
    fresh.status.connState = .invalid ∧ listening.status.connState = .listen := by decide

/-- P4 (the peer is the server) and P5 (the peer is the client), from P1-end. -/
theorem witness_TeardownClosesBothEnds :
    vec.wf = true ∧ clientUp.status.connState = .established ∧ clientUp.status.finSeen = false ∧
    receiving.status.connState = .established ∧ receiving.status.phase = .rcvWait ∧
    clientUp.conn.ack = receiving.conn.seq ∧ receiving.conn.ack = clientUp.conn.seq ∧
    receiving.status.role = .server ∧ serverUp.status.connState = .established ∧ serverUp.status.finSeen = false ∧
    clientReceiving.status.phase = .rcvWait ∧ serverUp.conn.ack = clientReceiving.conn.seq ∧
    clientReceiving.conn.ack = serverUp.conn.seq ∧ clientReceiving.status.role = .client := by decide

/-- A SEND of 5 bytes from A and a RECV of 5 bytes at B, from P1-end. -/
theorem witness_LosslessTransferDeliversThePayload :
    let a := { clientUp with cmd := { op := 0x05, arg0L := 0x8000, arg1L := 5, finalResult := 0 } }
    let b := { serverUp with cmd := { op := 0x06, arg0L := 0x9000, arg1L := 5, finalResult := 0 } }
    EngineInv a ∧ EngineInv b ∧ a.cfg.checksum = b.cfg.checksum ∧ a.cfg.mss = b.cfg.mss ∧
      a.conn.peerAddr = 7 ∧ b.conn.peerAddr = 9 ∧ a.conn.seq = b.conn.ack ∧
      a.status.phase = .idle ∧ b.status.phase = .idle ∧ a.status.connState = .established ∧
      b.status.connState = .established ∧ a.cmd.arg1L.toNat ≤ b.cmd.arg1L.toNat ∧
      Lends a .read a.cmd.arg0L.toNat a.cmd.arg1L.toNat ∧ Lends b .write b.cmd.arg0L.toNat a.cmd.arg1L.toNat ∧
      ∃ a1 b1, exec .send a = .next a1 ∧ exec .recv b = .next b1 ∧
        Link.Runs 0 ⟨a1, b1, sentTo 7 a a1, [], 9, 7⟩ ⟨a1, b1, sentTo 7 a a1, [], 9, 7⟩ := by
  intro a b
  obtain ⟨a1, ha⟩ := exists_of_isNext (show isNext (exec .send a) = true by decide +kernel)
  obtain ⟨b1, hb⟩ := exists_of_isNext (show isNext (exec .recv b) = true by decide +kernel)
  refine ⟨?_, ?_, by decide, by decide, by decide, by decide, by decide, by decide, by decide, by decide,
    by decide, by decide, lends_all rfl _ _ _ (by decide), lends_all rfl _ _ _ (by decide), a1, b1, ha, hb, .zero _⟩ <;>
  constructor <;> first | decide +kernel | exact Checksum.eval_singleBitSensitive _ | exact fun h => absurd h (by decide)

end Sys2Proof.Tests
end

section
/-! PROOFS. The statements of the scope: what completion writes (R14), and the engine invariant at reset (R5, R6, R320). -/

namespace Sys2Proof

/-- R5, R6: whatever the open parameters are, `Config.params` meets the constraints on them: each index is one less than
the number it stands for and stays inside the width of its register, and MAX_DGRAM is raised to `32 + MSS`. -/
theorem Config.params_wf : Config.params.wf = true := by
  have hmss := Config.mssIndex.isLt
  have hwindow := Config.initWindowIndex.isLt
  have hcwnd := Config.initCwndIndex.isLt
  have hssthresh := Config.initSsthreshIndex.isLt
  have htimeout := Config.ackTimeoutIndex.isLt
  have hdgram := Config.maxDgramWish.isLt
  simp only [Params.wf, Config.params, BitVec.toNat_ofNat, Bool.and_eq_true, decide_eq_true_eq]
  omega

namespace Machine

/-- The reset state of legal parameters meets `EngineInv`. CWND and SSTHRESH are positive by R5, no segment is expected
of no bytes, recv_buffer is empty, and the clauses about a wait phase, a set flag or a later CONN_STATE do not apply to
an idle, Invalid engine with every flag clear. -/
theorem resetWith_inv {p : Params} (hp : p.wf = true) : EngineInv (State.resetWith p) := by
  obtain ⟨hmss, -, -, hcwnd, hssthresh, -⟩ := Params.wf_bounds hp
  exact {
    params := hp
    checksum := Checksum.eval_singleBitSensitive p.checksum
    memory := rfl
    cwndPos := hcwnd
    ssthreshPos := hssthresh
    phaseConn := rfl
    phaseOp := rfl
    rxbuf := by simp [State.resetWith]
    listenRole := nofun
    connectRole := nofun
    doneIdle := nofun
    errIdle := nofun
    errCoded := nofun
    noAllocationFailure := nofun
    finSeen := nofun
    freshWindow := fun _ => rfl
    expectedSegs := (ceilDiv_zero hmss).symm
    noTotal := fun _ => rfl
    recvBuffer := Nat.zero_le _
    retries := by simp [State.resetWith]
    sending := nofun
    receiving := nofun }

/-- Settles O10: the two sides are the same record, field by field (R14). -/
theorem completeAndFailWriteTheOutcome : Obligations.CompleteAndFailWriteTheOutcome :=
  fun _ _ _ => ⟨rfl, rfl⟩

/-- Settles O47: `State.reset` is the reset state of `Config.params`, which are legal. -/
theorem resetMeetsTheEngineInvariant : Obligations.ResetMeetsTheEngineInvariant :=
  ⟨resetWith_inv Config.params_wf, fun _ => resetWith_inv⟩

end Machine
end Sys2Proof
end

section
/-! PROOFS. What a step can do, said once: the host's part of the state, the ways a command ends, and the outcome of
each command and of each event rule outside the send engine. -/

namespace Sys2Proof.Machine

/-! ### The host's part of the state (R36, R130, R306) -/

/-- The part of the state that events outside the engine write: the operand registers, CTRL, the W1C bits of STATUS,
host memory, the lent ranges, the read port and the events to come. -/
structure HostPart where
  arg0 : Word
  arg1 : Word
  irqEn : Bool
  done : Bool
  err : Bool
  cmdOverrun : Bool
  csumLog : Bool
  protoLog : Bool
  mem : Memory
  lent : List LentRange
  inputs : List Input
  readData : Word

/-- `s` with the host's part `u`. -/
def State.withHost (s : State) (u : HostPart) : State :=
  { s with
    arg0 := u.arg0
    arg1 := u.arg1
    irqEn := u.irqEn
    status :=
      { s.status with
        done := u.done, err := u.err, cmdOverrun := u.cmdOverrun, csumLog := u.csumLog, protoLog := u.protoLog }
    mem := u.mem
    lent := u.lent
    inputs := u.inputs
    readData := u.readData }

/-- The host's part of `s` itself. -/
def State.hostPart (s : State) : HostPart where
  arg0 := s.arg0
  arg1 := s.arg1
  irqEn := s.irqEn
  done := s.status.done
  err := s.status.err
  cmdOverrun := s.status.cmdOverrun
  csumLog := s.status.csumLog
  protoLog := s.status.protoLog
  mem := s.mem
  lent := s.lent
  inputs := s.inputs
  readData := s.readData

/-- The host's part `u` is one that an event can leave in `s`: DONE and ERR are at most cleared, and memory keeps its
canonical form. -/
structure HostPart.Allowed (u : HostPart) (s : State) : Prop where
  done : u.done = true → s.status.done = true
  err : u.err = true → s.status.err = true
  memory : Memory.wf s.mem = true → Memory.wf u.mem = true

/-- `t` differs from `s` in the host's part only. -/
def HostChange (s t : State) : Prop := ∃ u : HostPart, u.Allowed s ∧ t = s.withHost u

theorem HostChange.refl (s : State) : HostChange s s := ⟨s.hostPart, ⟨id, id, id⟩, rfl⟩

/-- Only the offset of CMD is CMD (R34). -/
theorem ofOffset_eq_cmd {o : Nat} (h : Reg.ofOffset o = .cmd) : o = 0x20 := by
  unfold Reg.ofOffset at h
  split at h <;> first | rfl | cases h

theorem size_of_regAccessOk {o size : Nat} (h : regAccessOk o size = true) : size = 4 := by
  simp only [regAccessOk, Bool.and_eq_true, decide_eq_true_eq] at h
  obtain ⟨⟨hsize, -⟩, -⟩ := h
  exact hsize

/-- A register write that issues no command changes the host's part only. -/
theorem writeReg_hostChange {r : Reg} {v : Word} {s t : State} (h : writeReg r v s = .next t)
    (hr : r = .cmd → s.status.phase ≠ .idle) : HostChange s t := by
  cases r
  case cmd =>
    rw [writeReg, writeCmd, if_neg (hr rfl)] at h
    cases h
    exact ⟨{ s.hostPart with cmdOverrun := true }, ⟨id, id, id⟩, rfl⟩
  case arg0 =>
    cases h
    exact ⟨{ s.hostPart with arg0 := v }, ⟨id, id, id⟩, rfl⟩
  case arg1 =>
    cases h
    exact ⟨{ s.hostPart with arg1 := v }, ⟨id, id, id⟩, rfl⟩
  case ctrl =>
    cases h
    exact ⟨{ s.hostPart with irqEn := v.getLsbD 0 }, ⟨id, id, id⟩, rfl⟩
  case status =>
    cases h
    exact ⟨{ s.hostPart with
        done := s.status.done && !v.getLsbD 1, err := s.status.err && !v.getLsbD 2,
        cmdOverrun := s.status.cmdOverrun && !v.getLsbD 3, csumLog := s.status.csumLog && !v.getLsbD 13,
        protoLog := s.status.protoLog && !v.getLsbD 14 },
      ⟨fun h => (Bool.and_eq_true_iff.1 h).1, fun h => (Bool.and_eq_true_iff.1 h).1, id⟩, rfl⟩
  all_goals
    cases h
    exact .refl s

theorem hostWrite_hostChange {a : Nat} {bs : List Byte} {s t : State} (h : hostWrite a bs s = .next t) :
    HostChange s t := by
  unfold hostWrite at h
  split at h
  · cases h
  · rename_i hr
    split at h
    · cases h
    · cases h
      exact ⟨{ s.hostPart with mem := s.mem.writeBytes a bs },
        ⟨id, id, fun hm => Memory.wf_writeBytes _ _ _ hm (by simpa [hostRangeOk] using hr)⟩, rfl⟩

theorem hostRead_eq {a n : Nat} {s t : State} (h : hostRead a n s = .next t) : t = s := by
  unfold hostRead at h
  split at h
  · cases h
  · split at h
    · cases h
    · cases h
      rfl

/-- All an event can do when its step completes: issue a command, run an RX event, reset the engine, or change the
host's part of the state. -/
theorem applyInput_cases {i : Input} {s t : State} (h : applyInput i s = .next t) :
    (∃ w, i = .regWrite 0x20 4 w ∧ s.status.phase = .idle ∧ issue w s = .next t) ∨
    (∃ e, i = .rx e ∧ rxEvent e s = .next t) ∨
    (i = .hwReset ∧ t = hardwareReset s) ∨ HostChange s t := by
  cases i with
  | regWrite o size v =>
    simp only [applyInput] at h
    split at h
    case isFalse => cases h
    case isTrue hok =>
      by_cases hi : Reg.ofOffset o = .cmd ∧ s.status.phase = .idle
      · obtain ⟨hc, hp⟩ := hi
        rw [hc, writeReg, writeCmd, if_pos hp] at h
        obtain rfl := ofOffset_eq_cmd hc
        obtain rfl := size_of_regAccessOk hok
        exact .inl ⟨v, rfl, hp, h⟩
      · exact .inr (.inr (.inr (writeReg_hostChange h fun hc hp => hi ⟨hc, hp⟩)))
  | regRead o size =>
    simp only [applyInput] at h
    split at h
    · cases h
      exact .inr (.inr (.inr ⟨{ s.hostPart with readData := readReg (Reg.ofOffset o) s }, ⟨id, id, id⟩, rfl⟩))
    · cases h
  | memWrite a bs => exact .inr (.inr (.inr (hostWrite_hostChange h)))
  | memRead a n => exact .inr (.inr (.inr (hostRead_eq h ▸ .refl s)))
  | lend rs =>
    cases h
    exact .inr (.inr (.inr ⟨{ s.hostPart with lent := rs }, ⟨id, id, id⟩, rfl⟩))
  | rx e => exact .inr (.inl ⟨e, rfl, h⟩)
  | hwReset =>
    cases h
    exact .inr (.inr (.inl ⟨rfl, rfl⟩))

/-- All an issue can do (R120, R125): fail a reserved opcode, or run the command, with cmd_op its opcode. -/
theorem issue_cases {w : Word} {s t : State} (h : issue w s = .next t) :
    t = fail .illegalCommand 0 (latch (opcodeOf w) s) ∨
    ∃ i, decode w = .ok i ∧ opcodeOf w = i.opcode ∧ exec i (latch (opcodeOf w) s) = .next t := by
  unfold issue at h
  split at h
  · cases h
    exact .inl rfl
  · rename_i i hd
    refine .inr ⟨i, hd, ?_, h⟩
    unfold decode decodeOp at hd
    split at hd <;> cases hd <;> exact BitVec.eq_of_toNat_eq ‹_›

/-! ### The ways a command ends (R14) -/

/-- The command ends in `s`, completed or failed with a code the engine uses, having written CSUM_LOG and host memory
at most. -/
inductive Ends (s : State) : State → Prop where
  | complete (r : Word) (m : Memory) (hm : Memory.wf s.mem = true → Memory.wf m = true) :
      Ends s (complete r { s with mem := m })
  | fail (c : ErrCode) (r : Word) (l : Bool) (h0 : c ≠ .none) (h4 : c ≠ .allocationFailure) :
      Ends s (fail c r { s with status.csumLog := l })

/-- A failure that logs nothing. -/
theorem Ends.fail_plain (s : State) (c : ErrCode) (r : Word) (h0 : c ≠ .none) (h4 : c ≠ .allocationFailure) :
    Ends s (Machine.fail c r s) := .fail c r s.status.csumLog h0 h4

/-- The CONN_STATE check, with its failure as an end of the command (R122, R123). -/
theorem whenPre_ends {i : Instr} {s t : State} {body : Out} (h : whenPre i s body = .next t) :
    Ends s t ∨ pre i s.status.connState = true ∧ body = .next t := by
  obtain ⟨-, rfl⟩ | hb := whenPre_cases h
  · exact .inl (.fail_plain s _ _ nofun nofun)
  · exact .inr hb

theorem complete_ends (r : Word) (s : State) : Ends s (complete r s) := .complete r s.mem id

/-! ### The commands -/

theorem execBuildHeader_ends {s t : State} (h : execBuildHeader s = .next t) : Ends s t := by
  obtain he | ⟨-, h⟩ := whenPre_ends h
  · exact he
  obtain ⟨ha, h⟩ := memWrite_next h
  cases h
  exact .complete _ _ (wf_writeBytes_of_admitted ha)

theorem execSeal_ends {s t : State} (h : execSeal s = .next t) : Ends s t := by
  obtain he | ⟨-, h⟩ := whenPre_ends h
  · exact he
  split at h
  · cases h
    exact .fail_plain s _ _ nofun nofun
  · obtain ⟨-, h⟩ := memRead_next h
    obtain ⟨ha, h⟩ := memWrite_next h
    cases h
    exact .complete _ _ (wf_writeBytes_of_admitted ha)

theorem execVerify_ends {s t : State} (h : execVerify s = .next t) : Ends s t := by
  obtain he | ⟨-, h⟩ := whenPre_ends h
  · exact he
  split at h
  · cases h
    exact .fail_plain s _ _ nofun nofun
  · obtain ⟨-, h⟩ := memRead_next h
    split at h
    · cases h
      exact complete_ends 1 s
    · cases h
      exact .fail _ _ true nofun nofun

theorem execClassify_ends {s t : State} (h : execClassify s = .next t) : Ends s t := by
  obtain he | ⟨-, h⟩ := whenPre_ends h
  · exact he
  split at h
  · cases h
    exact complete_ends _ s
  · split at h
    · cases h
      exact complete_ends _ s
    · obtain ⟨-, h⟩ := memRead_next h
      cases h
      exact complete_ends _ s

/-- SHUTDOWN: it fails, answers the FIN it has seen, or sends the first FIN (R170). -/
theorem execShutdown_cases {s t : State} (h : execShutdown s = .next t) :
    Ends s t ∨ s.status.connState = .established ∧
      (t = replyClose s.conn.peerFinSeq { s with cmd.finalResult := 0 } ∨
        t = { transmitCtl ctlFinAck s with
          conn.seq := s.conn.seq + 1, status.connState := .closingByPeer, status.phase := .shdWaitAck }) := by
  obtain he | ⟨hp, h⟩ := whenPre_ends h
  · exact .inl he
  refine .inr ⟨of_decide_eq_true hp, ?_⟩
  split at h
  · cases h
    exact .inl rfl
  · cases h
    exact .inr rfl

/-! ### The handshake and teardown event rules -/

/-- What five of the rules `f` share: a TimedOut and a datagram of another class than the awaited one end the command
(R163, R168, R172, R174, R177), and `body` is the rest of the rule. -/
theorem awaiting_cases {f : RxEvent → State → Out} {k : DgramClass} {r : Word} {body : List Byte → Out} {e : RxEvent}
    {s t : State} (htime : f .timedOut s = .next (fail .timeout r s))
    (hdata : ∀ b src, f (.datagram b src) s =
      if classify b ≠ k then .next (fail .protocolViolation r s) else body b)
    (h : f e s = .next t) : Ends s t ∨ ∃ b, body b = .next t := by
  cases e with
  | timedOut =>
    cases htime.symm.trans h
    exact .inl (.fail_plain s _ _ nofun nofun)
  | datagram b src =>
    rw [hdata] at h
    split at h
    · cases h
      exact .inl (.fail_plain s _ _ nofun nofun)
    · exact .inr ⟨b, h⟩

/-- CONN_WAIT_SYNACK: the CONNECT fails or establishes the client (R162, R163). -/
theorem rxConnWaitSynack_cases {e : RxEvent} {s t : State} (h : rxConnWaitSynack e s = .next t) :
    Ends s t ∨ ∃ (l : Bool) (w : Half) (a : Word),
      t = complete 0
        { transmitCtl ctlAck
            { s with status.csumLog := l, conn.peerWindow := w, conn.ack := a, conn.seq := s.conn.seq + 1 } with
          status.connState := .established, status.rxbufValid := true } := by
  obtain he | ⟨b, h⟩ := awaiting_cases rfl (fun _ _ => rfl) h
  · exact .inl he
  simp only [logCsumUnless_eq] at h
  split at h
  · cases h
    exact .inl (.fail _ _ _ nofun nofun)
  · cases h
    exact .inr ⟨_, _, _, rfl⟩

/-- ACC_WAIT_SYN: the event is ignored, the ACCEPT fails, or the SYN is answered (R165, R166). -/
theorem rxAccWaitSyn_cases {e : RxEvent} {s t : State} (h : rxAccWaitSyn e s = .next t) :
    t = s ∨ Ends s t ∨ ∃ (l : Bool) (p : Word) (w : Half) (a : Word),
      t = { transmitCtl ctlSynAck
              { s with status.csumLog := l, conn.peerAddr := p, conn.peerWindow := w, conn.ack := a } with
            status.phase := .accWaitAck } := by
  cases e with
  | timedOut =>
    cases h
    exact .inl rfl
  | datagram b src =>
    simp only [rxAccWaitSyn, logCsumUnless_eq] at h
    split at h
    · cases h
      exact .inr (.inl (.fail_plain s _ _ nofun nofun))
    · cases h
      exact .inr (.inr ⟨_, _, _, _, rfl⟩)

/-- ACC_WAIT_ACK: the ACCEPT fails or establishes the server (R167, R168). -/
theorem rxAccWaitAck_cases {e : RxEvent} {s t : State} (h : rxAccWaitAck e s = .next t) :
    Ends s t ∨ ∃ (l : Bool) (w : Half),
      t = complete s.conn.peerAddr
        { s with
          status.csumLog := l
          conn.peerWindow := w
          conn.seq := s.conn.seq + 1
          status.connState := .established
          status.rxbufValid := true } := by
  obtain he | ⟨b, h⟩ := awaiting_cases rfl (fun _ _ => rfl) h
  · exact .inl he
  simp only [logCsumUnless_eq] at h
  split at h
  · cases h
    exact .inl (.fail _ _ _ nofun nofun)
  · cases h
    exact .inr ⟨_, _, rfl⟩

/-- SHD_WAIT_ACK: the SHUTDOWN fails or waits for the peer's FIN (R171, R172). -/
theorem rxShdWaitAck_cases {e : RxEvent} {s t : State} (h : rxShdWaitAck e s = .next t) :
    Ends s t ∨ ∃ l : Bool, t = { s with status.csumLog := l, status.phase := .shdWaitFin } := by
  obtain he | ⟨b, h⟩ := awaiting_cases rfl (fun _ _ => rfl) h
  · exact .inl he
  simp only [logCsumUnless_eq] at h
  split at h
  · cases h
    exact .inl (.fail _ _ _ nofun nofun)
  · cases h
    exact .inr ⟨_, rfl⟩

/-- SHD_WAIT_FIN: the SHUTDOWN fails or closes the connection (R173, R174). -/
theorem rxShdWaitFin_cases {e : RxEvent} {s t : State} (h : rxShdWaitFin e s = .next t) :
    Ends s t ∨ ∃ (l : Bool) (a : Word),
      t = complete 0
        { transmitCtl ctlAck { s with status.csumLog := l, conn.ack := a } with
          status.connState := .closed, status.rxbufValid := false } := by
  obtain he | ⟨b, h⟩ := awaiting_cases rfl (fun _ _ => rfl) h
  · exact .inl he
  simp only [logCsumUnless_eq] at h
  cases h
  exact .inr ⟨_, _, rfl⟩

/-- WAIT_FINAL_ACK: the command fails or closes the connection (R176, R177). -/
theorem rxWaitFinalAck_cases {e : RxEvent} {s t : State} (h : rxWaitFinalAck e s = .next t) :
    Ends s t ∨ ∃ l : Bool,
      t = complete s.cmd.finalResult
        { s with
          status.csumLog := l
          conn.seq := s.conn.seq + 1
          status.connState := .closed
          status.rxbufValid := false } := by
  obtain he | ⟨b, h⟩ := awaiting_cases rfl (fun _ _ => rfl) h
  · exact .inl he
  simp only [logCsumUnless_eq] at h
  split at h
  · cases h
    exact .inl (.fail _ _ _ nofun nofun)
  · cases h
    exact .inr ⟨_, rfl⟩

/-! ### The receive engine's event rules -/

/-- TimedOut: the RECV fails at the retry bound and waits below it (R242). -/
theorem rcvTimedOut_cases {s t : State} (h : rcvTimedOut s = .next t) :
    Ends (countTimeout s) t ∨ retriesExhausted (countTimeout s) = false ∧ t = countTimeout s := by
  unfold rcvTimedOut at h
  dsimp only at h
  split at h
  · cases h
    exact .inl (.fail_plain _ _ _ nofun nofun)
  · cases h
    exact .inr ⟨Bool.eq_false_iff.2 ‹_›, rfl⟩

/-- The state with the total that the 4 bytes `b` announce (R243). -/
def announce (b : List Byte) (s : State) : State :=
  { s with
    prog.rxTotal := prefixValue b
    status.rxTotalValid := true
    prog.rxExpectedSegs := BitVec.ofNat 32 (ceilDiv (prefixValue b).toNat s.cfg.mss.toNat) }

/-- A 4-byte datagram is logged when the total is known; else it announces the total, and the RECV ends or has bytes to
wait for, which fit its buffer (R243). -/
theorem rcvPrefix_cases {b : List Byte} {s t : State} (h : rcvPrefix b s = .next t) :
    t = logProto s ∨ Ends (announce b s) t ∨
      t = announce b s ∧ s.prog.rxWritten.toNat < (prefixValue b).toNat ∧
        (prefixValue b).toNat ≤ s.rcv.max.toNat := by
  unfold rcvPrefix at h
  dsimp only at h
  split at h
  · cases h
    exact .inl rfl
  split at h
  · cases h
    exact .inr (.inl (.fail_plain (announce b s) _ _ nofun nofun))
  split at h
  · cases h
    exact .inr (.inl (.fail_plain (announce b s) _ _ nofun nofun))
  split at h
  · cases h
    exact .inr (.inl (complete_ends _ (announce b s)))
  · rename_i hmax hlow hne
    cases h
    have : s.prog.rxWritten.toNat ≠ (prefixValue b).toNat := fun he => hne (BitVec.eq_of_toNat_eq he)
    exact .inr (.inr ⟨rfl, by omega, by omega⟩)

/-- A FIN|ACK starts the server's reply and ends the client's RECV (R244). -/
theorem rcvFinack_cases {b : List Byte} {s t : State} (h : rcvFinack b s = .next t) :
    ∃ l : Bool,
      t = replyClose (seqOf b) { s with status.csumLog := l, cmd.finalResult := s.prog.rxWritten } ∨
      s.status.role = .client ∧
        Ends { s with status.csumLog := l, conn.peerFinSeq := seqOf b, status.finSeen := true } t := by
  simp only [rcvFinack, logCsumUnless_eq] at h
  split at h
  · cases h
    exact ⟨_, .inl rfl⟩
  · cases h
    exact ⟨_, .inr ⟨‹_›, complete_ends _ _⟩⟩

/-- An ACK is logged at most (R245). -/
theorem rcvAck_eq {b : List Byte} {s t : State} (h : rcvAck b s = .next t) :
    ∃ l p : Bool, t = { s with status.csumLog := l, status.protoLog := p } := by
  simp only [rcvAck, logCsumUnless_eq] at h
  split at h
  · cases h
    exact ⟨_, _, rfl⟩
  · cases h
    exact ⟨_, s.status.protoLog, rfl⟩

/-- A rejected datagram is answered, counted and logged at most (R249). -/
theorem rcvReject_eq {b : List Byte} {s t : State} (h : rcvReject b s = .next t) :
    ∃ l : Bool, t = { transmitCtl ctlAck s with count.rxDup := s.count.rxDup + 1, status.csumLog := l } := by
  simp only [rcvReject, logCsumUnless_eq] at h
  cases h
  exact ⟨_, rfl⟩

/-- The state after the accepted segment `b`, before the RECV ends or goes on (R248). -/
def accepted (b : List Byte) (s : State) : State :=
  transmitCtl ctlAck
    { s with
      mem := s.mem.writeBytes (acceptAddr s) (payloadOf b)
      prog.rxWritten := s.prog.rxWritten + BitVec.ofNat 32 (b.length - 32)
      conn.ack := s.conn.ack + BitVec.ofNat 32 (b.length - 32)
      conn.currWindow := minWindow s.cfg.initWindow
        (s.rcv.max - (s.prog.rxWritten + BitVec.ofNat 32 (b.length - 32))) }

/-- An accepted segment ends the RECV when the announced total is complete (R248). -/
theorem rcvAccept_cases {b : List Byte} {s t : State} (h : rcvAccept b s = .next t) :
    admitted s.lent (acceptAddr s) (payloadOf b).length .write = true ∧
    (Ends (accepted b s) t ∨
      t = accepted b s ∧
        (s.status.rxTotalValid = true → (accepted b s).prog.rxWritten ≠ s.prog.rxTotal)) := by
  obtain ⟨ha, h⟩ := memWrite_next h
  refine ⟨ha, ?_⟩
  dsimp only at h
  split at h
  · cases h
    exact .inl (complete_ends _ (accepted b s))
  · rename_i hn
    cases h
    exact .inr ⟨rfl, fun hv he => hn ⟨hv, he⟩⟩

end Sys2Proof.Machine
end

section
/-! PROOFS. Every step keeps the engine invariant (R30, R52, R179, R180, R203, R224, R225, R251). -/

namespace Sys2Proof.Machine

/-! ### The invariant, cut into parts -/

/-- The clauses of `EngineInv` that do not read PHASE or the completion flags: what holds of the connection and the
registers at every point of a rule. -/
structure CoreInv (s : State) : Prop where
  params : s.cfg.wf = true
  memory : Memory.wf s.mem = true
  cwndPos : 1 ≤ s.conn.cwnd.toNat
  ssthreshPos : 1 ≤ s.conn.ssthresh.toNat
  notClosingByHost : s.status.connState ≠ .closingByHost
  rxbuf : s.status.rxbufValid = true ↔ (s.status.connState = .established ∨ s.status.connState = .closingByPeer)
  listenRole : s.status.connState = .listen → s.status.role = .server
  finSeen : s.status.finSeen = true →
    s.status.role = .client ∧ s.status.connState ≠ .invalid ∧ s.status.connState ≠ .listen
  freshWindow : (s.status.connState = .invalid ∨ s.status.connState = .listen) →
    s.conn.currWindow = s.cfg.initWindow
  expectedSegs : s.prog.rxExpectedSegs.toNat = ceilDiv s.prog.rxTotal.toNat s.cfg.mss.toNat
  noTotal : s.status.rxTotalValid = false → s.prog.rxTotal = 0
  recvBuffer : s.recvBuffer.length ≤ 32 + s.cfg.mss.toNat

/-- The completion flags while a command runs (R120): no outcome shows. -/
structure NoOutcome (s : State) : Prop where
  done : s.status.done = false
  err : s.status.err = false
  code : s.status.errCode ≠ .allocationFailure

/-- `s` is below the retry bound (R209, R242). -/
def BelowRetries (s : State) : Prop := s.cfg.maxRetries ≠ 0 → s.consecTo.toNat < s.cfg.maxRetries.toNat

theorem phaseConnOk_ne_closingByHost {p : Phase} {c : ConnState} (h : phaseConnOk p c = true) :
    c ≠ .closingByHost := by
  rintro rfl
  cases p <;> cases h

theorem EngineInv.core {s : State} (h : EngineInv s) : CoreInv s :=
  { h with notClosingByHost := phaseConnOk_ne_closingByHost h.phaseConn }

theorem EngineInv.noOutcome {s : State} (h : EngineInv s) (hp : s.status.phase ≠ .idle) : NoOutcome s where
  done := Bool.eq_false_iff.2 fun hd => hp (h.doneIdle hd)
  err := Bool.eq_false_iff.2 fun he => hp (h.errIdle he)
  code := h.noAllocationFailure

theorem BelowRetries.of_zero {s : State} (h : s.consecTo = 0) : BelowRetries s := by
  intro hm
  have : s.cfg.maxRetries.toNat ≠ 0 := fun h0 => hm (BitVec.eq_of_toNat_eq h0)
  rw [h]
  exact Nat.pos_of_ne_zero this

theorem BelowRetries.of_not_exhausted {s : State} (h : retriesExhausted s = false) : BelowRetries s := by
  simpa [BelowRetries, retriesExhausted] using h

/-- A connection that leaves Invalid and Listen keeps the clauses, when RXBUF_VALID goes with it (R179). -/
theorem CoreInv.withConn {s : State} (h : CoreInv s) (c : ConnState) (v : Bool)
    (hc : c ≠ .invalid ∧ c ≠ .listen ∧ c ≠ .closingByHost)
    (hv : v = true ↔ (c = .established ∨ c = .closingByPeer)) :
    CoreInv { s with status.connState := c, status.rxbufValid := v } := by
  obtain ⟨hinvalid, hlisten, hhost⟩ := hc
  exact { h with
    notClosingByHost := hhost
    rxbuf := hv
    listenRole := fun hl => absurd hl hlisten
    finSeen := fun hf => ⟨(h.finSeen hf).1, hinvalid, hlisten⟩
    freshWindow := fun hf => absurd hf (not_or.2 ⟨hinvalid, hlisten⟩) }

/-- A completed command leaves the invariant: IDLE asks for no more than `CoreInv`. -/
theorem CoreInv.complete {s : State} (h : CoreInv s) (r : Word) : EngineInv (complete r s) :=
  { h with
    checksum := Checksum.eval_singleBitSensitive _
    phaseConn := decide_eq_true h.notClosingByHost
    phaseOp := rfl
    connectRole := nofun
    doneIdle := fun _ => rfl
    errIdle := nofun
    errCoded := nofun
    noAllocationFailure := nofun
    retries := nofun
    sending := nofun
    receiving := nofun }

/-- So does a failed one, with a code the engine uses (R295). -/
theorem CoreInv.fail {s : State} (h : CoreInv s) (c : ErrCode) (r : Word) (h0 : c ≠ .none)
    (h4 : c ≠ .allocationFailure) : EngineInv (fail c r s) :=
  { h with
    checksum := Checksum.eval_singleBitSensitive _
    phaseConn := decide_eq_true h.notClosingByHost
    phaseOp := rfl
    connectRole := nofun
    doneIdle := fun _ => rfl
    errIdle := fun _ => rfl
    errCoded := fun _ => h0
    noAllocationFailure := h4
    retries := nofun
    sending := nofun
    receiving := nofun }

/-- Every end of a command leaves the invariant. -/
theorem CoreInv.ends {s t : State} (h : CoreInv s) (he : Ends s t) : EngineInv t := by
  cases he with
  | complete r m hm => exact CoreInv.complete (s := { s with mem := m }) { h with memory := hm h.memory } r
  | fail c r l h0 h4 => exact CoreInv.fail (s := { s with status.csumLog := l }) { h with } c r h0 h4

/-- A waiting command leaves the invariant when the clauses of its phase hold. -/
theorem CoreInv.waiting {s : State} (h : CoreInv s) (hn : NoOutcome s)
    (phaseConn : phaseConnOk s.status.phase s.status.connState = true)
    (phaseOp : phaseOpOk s.status.phase s.cmd.op = true)
    (connectRole : s.status.phase = .connWaitSynack → s.status.role = .client)
    (retries : (s.status.phase = .sndWaitAck ∨ s.status.phase = .rcvWait) → BelowRetries s)
    (sending : s.status.phase = .sndWaitAck → SendInv s)
    (receiving : s.status.phase = .rcvWait → RecvInv s) : EngineInv s :=
  { h with
    checksum := Checksum.eval_singleBitSensitive _
    phaseConn := phaseConn
    phaseOp := phaseOp
    connectRole := connectRole
    doneIdle := fun hd => absurd hd (by simp [hn.done])
    errIdle := fun he => absurd he (by simp [hn.err])
    errCoded := fun he => absurd he (by simp [hn.err])
    noAllocationFailure := hn.code
    retries := retries
    sending := sending
    receiving := receiving }

/-! ### Events outside the engine -/

/-- The host's part of the state is in the invariant only by memory's form and by DONE and ERR, which it only clears. -/
theorem EngineInv.withHost {s : State} (h : EngineInv s) {u : HostPart} (hu : u.Allowed s) :
    EngineInv (s.withHost u) :=
  { h with
    memory := hu.memory h.memory
    doneIdle := fun hd => h.doneIdle (hu.done hd)
    errIdle := fun he => h.errIdle (hu.err he)
    errCoded := fun he => h.errCoded (hu.err he)
    sending := fun hp => { h.sending hp with }
    receiving := fun hp => { h.receiving hp with } }

theorem EngineInv.hardwareReset {s : State} (h : EngineInv s) : EngineInv (hardwareReset s) :=
  { resetWith_inv h.params with
    memory := h.memory
    sending := nofun
    receiving := nofun }

/-- The datagram of an event stays inside recv_buffer (R33). -/
theorem EngineInv.storeDatagram {s : State} (h : EngineInv s) (e : RxEvent) : EngineInv (storeDatagram e s) := by
  cases e with
  | timedOut => exact h
  | datagram b src =>
    exact {
      h with
      recvBuffer := List.length_take_le ..
      sending := fun hp => { h.sending hp with }
      receiving := fun hp => { h.receiving hp with } }

/-! ### The send engine (R202 to R222) -/

/-- What holds of a running SEND, in a round and between rounds. -/
structure Sending (s : State) : Prop where
  core : CoreInv s
  noOutcome : NoOutcome s
  established : s.status.connState = .established
  op : s.cmd.op = Instr.send.opcode
  retries : BelowRetries s

/-- The clauses of `SendInv` with `k` acknowledgements of the round taken; `SendInv` itself also says that one is still
awaited. -/
structure RoundInv (k : Nat) (s : State) : Prop where
  roundPos : 1 ≤ s.snd.roundLen.toNat
  roundSmall : s.snd.roundLen.toNat ≤ 65535
  roundCount : s.snd.roundN.toNat = ceilDiv s.snd.roundLen.toNat s.cfg.mss.toNat
  dups : s.snd.roundDup.toNat ≤ k
  transmitted : (off s s.snd.roundSeq).toNat + s.snd.roundLen.toNat ≤ s.snd.maxOff.toNat
  insidePayload : s.snd.maxOff.toNat ≤ s.snd.len.toNat
  seqLow : (off s s.snd.roundSeq).toNat ≤ (off s s.conn.seq).toNat
  seqHigh : (off s s.conn.seq).toNat ≤
    (off s s.snd.roundSeq).toNat + min (k * s.cfg.mss.toNat) s.snd.roundLen.toNat
  recorded : s.snd.recValid = true → (off s s.snd.recAck).toNat ≤ s.snd.maxOff.toNat
  started : s.prog.roundStart = off s s.snd.roundSeq
  delivered : s.prog.txDelivered = off s s.snd.roundSeq

theorem SendInv.round {s : State} (h : SendInv s) : RoundInv s.snd.waitK.toNat s := { h with }

/-- SEQ_NUMBER stands inside what the round has transmitted. -/
theorem RoundInv.seq_le {k : Nat} {s : State} (h : RoundInv k s) : (off s s.conn.seq).toNat ≤ s.snd.maxOff.toNat := by
  have := h.seqHigh
  have := h.transmitted
  omega

/-- A SEND that waits for an acknowledgement leaves the invariant. -/
theorem Sending.waiting {s : State} (h : Sending s) (hp : s.status.phase = .sndWaitAck) (hi : SendInv s) :
    EngineInv s :=
  h.core.waiting h.noOutcome
    (phaseConn := by rw [hp, h.established]; rfl)
    (phaseOp := by rw [hp, h.op]; rfl)
    (connectRole := by rw [hp]; nofun)
    (retries := fun _ => h.retries)
    (sending := fun _ => hi)
    (receiving := by rw [hp]; nofun)

/-- A new round meets `SendInv`, when it starts inside the payload (R202 to R206). -/
theorem beginRound_sendInv {s : State} {d r : Nat} (hmss : 1 ≤ s.cfg.mss.toNat) (hd : d = (off s s.conn.seq).toNat)
    (hdel : s.prog.txDelivered = off s s.conn.seq) (hr : 1 ≤ r) (hr' : r ≤ 65535) (hlen : d + r ≤ s.snd.len.toNat)
    (hmax : s.snd.maxOff.toNat ≤ s.snd.len.toNat) : SendInv (beginRound d r s) := by
  have hl := s.snd.len.isLt
  have hc := ceilDiv_le (r := r) hmss
  have hc' := ceilDiv_pos hmss hr
  have hR : (beginRound d r s).snd.roundLen.toNat = r := by
    simp only [beginRound, BitVec.toNat_ofNat]
    omega
  have hN : (beginRound d r s).snd.roundN.toNat = ceilDiv r s.cfg.mss.toNat := by
    simp only [beginRound, BitVec.toNat_ofNat]
    omega
  have hM : (beginRound d r s).snd.maxOff.toNat = max s.snd.maxOff.toNat (d + r) := by
    simp only [beginRound, BitVec.toNat_ofNat]
    omega
  have hO : (off (beginRound d r s) (beginRound d r s).snd.roundSeq).toNat = d := hd.symm
  exact {
    roundPos := by omega
    roundSmall := by omega
    roundCount := by rw [hN, hR, beginRound_cfg]
    waiting := by rw [hN]; exact hc'
    dups := Nat.zero_le _
    transmitted := by omega
    insidePayload := by rw [hM]; exact Nat.max_le.2 ⟨hmax, hlen⟩
    seqLow := Nat.le_refl _
    seqHigh := Nat.le_add_right ..
    recorded := nofun
    started := by rw [hd]; exact BitVec.ofNat_toNat ..
    delivered := hdel }

/-- A round start leaves the invariant: the SEND is complete, or its next round lies inside the payload. -/
theorem Sending.startRound {s t : State} (h : Sending s) (hmax : s.snd.maxOff.toNat ≤ s.snd.len.toNat)
    (hseq : (off s s.conn.seq).toNat ≤ s.snd.len.toNat) (ht : startRound s = .next t) : EngineInv t := by
  obtain ⟨-, rfl⟩ | ⟨hrem, u, rfl, rfl, -⟩ := startRound_cases ht
  · exact CoreInv.complete (s := { s with prog.txDelivered := off s s.conn.seq }) { h.core with } _
  · have hleft : (s.snd.len - off s s.conn.seq).toNat = s.snd.len.toNat - (off s s.conn.seq).toNat :=
      BitVec.toNat_sub_of_le hseq
    have hpos : (s.snd.len - off s s.conn.seq).toNat ≠ 0 := fun h0 => hrem (BitVec.eq_of_toNat_eq h0)
    obtain ⟨h1, h2, h3⟩ := roundSize_bounds s h.core.cwndPos (Nat.pos_of_ne_zero hpos)
    have hinv := beginRound_sendInv (s := { s with prog.txDelivered := off s s.conn.seq })
      (Params.wf_bounds h.core.params).1 rfl rfl h1 h2
      (by show (off s s.conn.seq).toNat + _ ≤ s.snd.len.toNat; omega) hmax
    refine Sending.waiting ?_ rfl { hinv with }
    exact { h with core := { h.core with }, noOutcome := { h.noOutcome with } }

theorem halveIfDup_eq (s : State) :
    ∃ w th n, halveIfDup s = { s with conn := { s.conn with cwnd := w, ssthresh := th }, count.halve := n } := by
  unfold halveIfDup
  split
  · exact ⟨_, _, _, rfl⟩
  · exact ⟨s.conn.cwnd, s.conn.ssthresh, s.count.halve, rfl⟩

/-- Duplicate halving keeps a round (R220). -/
theorem Sending.halveIfDup {k : Nat} {s : State} (h : Sending s) (hi : RoundInv k s) :
    Sending (halveIfDup s) ∧ RoundInv k (halveIfDup s) := by
  obtain ⟨hw, hth⟩ := halveIfDup_pos s h.core.cwndPos h.core.ssthreshPos
  obtain ⟨w, th, n, he⟩ := halveIfDup_eq s
  rw [he] at hw hth ⊢
  exact ⟨{ h with core := { h.core with cwndPos := hw, ssthreshPos := hth }, noOutcome := { h.noOutcome with } },
    { hi with }⟩

/-- The end of a round leaves the invariant: SEQ_NUMBER, or the recorded ack that takes its place, stands inside what
has been transmitted (R220 to R222). -/
theorem Sending.roundEnd {k : Nat} {s t : State} (h : Sending s) (hi : RoundInv k s) (ht : roundEnd s = .next t) :
    EngineInv t := by
  obtain ⟨h, hi⟩ := h.halveIfDup hi
  have hp := hi.insidePayload
  unfold Machine.roundEnd confirmRecorded at ht
  split at ht
  · rename_i hv
    have := hi.recorded hv.1
    refine Sending.startRound (s := { Machine.halveIfDup s with conn.seq := (Machine.halveIfDup s).snd.recAck })
      ?_ hp (Nat.le_trans this hp) ht
    exact { h with core := { h.core with }, noOutcome := { h.noOutcome with } }
  · exact h.startRound hp (Nat.le_trans hi.seq_le hp) ht

/-- What holds when the ack of chunk `wait_k` has been taken, before the engine advances to the next chunk. -/
structure AckTaken (s : State) : Prop where
  sending : Sending s
  phase : s.status.phase = .sndWaitAck
  waiting : s.snd.waitK.toNat < s.snd.roundN.toNat
  round : RoundInv (s.snd.waitK.toNat + 1) s

theorem toNat_add_one_of_lt {x y : Word} (h : x.toNat < y.toNat) : (x + 1).toNat = x.toNat + 1 := by
  bv_omega

/-- The advance to the next chunk leaves the invariant (R219). -/
theorem AckTaken.advance {s t : State} (h : AckTaken s) (ht : advance s = .next t) : EngineInv t := by
  obtain ⟨hs, hp, hw, hi⟩ := h
  have hk := toNat_add_one_of_lt hw
  have hs' : Sending { s with snd.waitK := s.snd.waitK + 1 } :=
    { hs with core := { hs.core with }, noOutcome := { hs.noOutcome with } }
  have hi' : RoundInv (s.snd.waitK + 1).toNat { s with snd.waitK := s.snd.waitK + 1 } := by
    rw [hk]
    exact { hi with }
  unfold Machine.advance at ht
  dsimp only at ht
  split at ht
  · exact hs'.roundEnd hi' ht
  · rename_i hne
    cases ht
    have : s.snd.waitK.toNat + 1 ≠ s.snd.roundN.toNat := fun he => hne (BitVec.eq_of_toNat_eq (hk.trans he))
    exact hs'.waiting hp { hi' with waiting := by show (s.snd.waitK + 1).toNat < s.snd.roundN.toNat; omega }

/-- An in-order ack moves SEQ_NUMBER to the end of the awaited chunk (R215 to R217). -/
theorem Sending.ackInOrder {s : State} (h : Sending s) (hp : s.status.phase = .sndWaitAck) (hi : SendInv s) :
    AckTaken (ackInOrder s) := by
  have hseq := off_endSeq s s.snd.waitK.toNat hi.transmitted
  have hpos := growCwnd_cwnd_pos { s with conn.seq := endSeq s s.snd.waitK.toNat } h.core.cwndPos
  obtain ⟨w, g, he⟩ := growCwnd_eq { s with conn.seq := endSeq s s.snd.waitK.toNat }
  rw [Machine.ackInOrder]
  rw [he] at hpos ⊢
  exact {
    sending := { h with core := { h.core with cwndPos := hpos }, noOutcome := { h.noOutcome with } }
    phase := hp
    waiting := hi.waiting
    round := { hi with
      dups := Nat.le_succ_of_le hi.dups
      seqLow := hseq ▸ Nat.le_add_right ..
      seqHigh := Nat.le_of_eq hseq } }

/-- A duplicate keeps SEQ_NUMBER and counts one more (R213, R218). -/
theorem Sending.countDup {s : State} (h : Sending s) (hp : s.status.phase = .sndWaitAck) (hi : SendInv s) :
    AckTaken (countDup s) := by
  have hdup : (s.snd.roundDup + 1).toNat = s.snd.roundDup.toNat + 1 :=
    toNat_add_one_of_lt (Nat.lt_of_le_of_lt hi.dups hi.waiting)
  have hle : min (s.snd.waitK.toNat * s.cfg.mss.toNat) s.snd.roundLen.toNat ≤
      min ((s.snd.waitK.toNat + 1) * s.cfg.mss.toNat) s.snd.roundLen.toNat :=
    min_le_min_right _ (Nat.mul_le_mul_right _ (Nat.le_succ _))
  exact {
    sending := { h with core := { h.core with }, noOutcome := { h.noOutcome with } }
    phase := hp
    waiting := hi.waiting
    round := { hi with
      dups := hdup ▸ Nat.succ_le_succ hi.dups
      seqHigh := Nat.le_trans hi.seqHigh (Nat.add_le_add_left hle _) } }

/-- An out-of-order ack is a duplicate, and is recorded only inside what has been transmitted (R218). -/
theorem Sending.ackOutOfOrder {s : State} (h : Sending s) (hp : s.status.phase = .sndWaitAck) (hi : SendInv s)
    (a : Word) : AckTaken (ackOutOfOrder a s) := by
  have hd := h.countDup hp hi
  unfold Machine.ackOutOfOrder
  dsimp only
  split
  · rename_i hr
    obtain ⟨-, hmax, -⟩ := hr
    exact { hd with
      sending := { hd.sending with core := { hd.sending.core with }, noOutcome := { hd.sending.noOutcome with } }
      round := { hd.round with recorded := fun _ => hmax } }
  · exact hd

/-- An ACK datagram leaves the invariant, whether it verifies and is in order or not (R213 to R219). -/
theorem Sending.sndAck {s t : State} (h : Sending s) (hp : s.status.phase = .sndWaitAck) (hi : SendInv s)
    {b : List Byte} (ht : sndAck b s = .next t) : EngineInv t := by
  unfold Machine.sndAck at ht
  dsimp only at ht
  split at ht
  · have hs : Sending { s with conn.peerWindow := winOf b } :=
      { h with core := { h.core with }, noOutcome := { h.noOutcome with } }
    split at ht
    · exact (hs.ackInOrder hp { hi with }).advance ht
    · exact (hs.ackOutOfOrder hp { hi with } (ackOf b)).advance ht
  · have hs : Sending (logCsum s) := { h with core := { h.core with }, noOutcome := { h.noOutcome with } }
    exact (hs.countDup hp { hi with }).advance ht

/-- A TimedOut leaves the invariant: CWND and SSTHRESH stay positive, and the SEND fails at the retry bound or starts
its round again (R209 to R211). -/
theorem Sending.sndTimedOut {s t : State} (h : Sending s) (hi : SendInv s) (ht : sndTimedOut s = .next t) :
    EngineInv t := by
  obtain ⟨hw, hth⟩ := collapse_pos (countTimeout s) h.core.params
  have hc : CoreInv (collapse (countTimeout s)) := { h.core with cwndPos := hw, ssthreshPos := hth }
  unfold Machine.sndTimedOut at ht
  dsimp only at ht
  split at ht
  · cases ht
    refine CoreInv.fail ?_ _ _ nofun nofun
    exact { hc with }
  · rename_i hx
    have hs : Sending (collapse (countTimeout s)) :=
      { h with
        core := hc
        noOutcome := { h.noOutcome with }
        retries := .of_not_exhausted (Bool.eq_false_iff.2 hx) }
    exact hs.startRound hi.insidePayload (Nat.le_trans hi.round.seq_le hi.insidePayload) ht

/-- Every event of SND_WAIT_ACK leaves the invariant (R208). -/
theorem EngineInv.rxSndWaitAck {s t : State} (h : EngineInv s) (hp : s.status.phase = .sndWaitAck) {e : RxEvent}
    (ht : rxSndWaitAck e s = .next t) : EngineInv t := by
  have hn := h.noOutcome (by rw [hp]; nofun)
  have hest : s.status.connState = .established := by simpa [phaseConnOk, hp] using h.phaseConn
  have hop : s.cmd.op = Instr.send.opcode := by simpa [phaseOpOk, hp] using h.phaseOp
  cases e with
  | timedOut => exact Sending.sndTimedOut ⟨h.core, hn, hest, hop, h.retries (.inl hp)⟩ (h.sending hp) ht
  | datagram b src =>
    have hs : Sending { s with consecTo := 0 } :=
      ⟨{ h.core with }, { hn with }, hest, hop, .of_zero rfl⟩
    simp only [Machine.rxSndWaitAck] at ht
    split at ht
    · cases ht
      have hs' : Sending (logProto { s with consecTo := 0 }) :=
        { hs with core := { hs.core with }, noOutcome := { hs.noOutcome with } }
      exact hs'.waiting hp { h.sending hp with }
    · exact hs.sndAck hp { h.sending hp with } ht

/-! ### The receive engine (R240 to R251) -/

/-- What holds of a running RECV. -/
structure Receiving (s : State) : Prop where
  core : CoreInv s
  noOutcome : NoOutcome s
  established : s.status.connState = .established
  op : s.cmd.op = Instr.recv.opcode
  phase : s.status.phase = .rcvWait

/-- A RECV that goes on waiting leaves the invariant. -/
theorem Receiving.waiting {s : State} (h : Receiving s) (hr : BelowRetries s) (hi : RecvInv s) : EngineInv s :=
  h.core.waiting h.noOutcome
    (phaseConn := by rw [h.phase, h.established]; rfl)
    (phaseOp := by rw [h.phase, h.op]; rfl)
    (connectRole := by rw [h.phase]; nofun)
    (retries := fun _ => hr)
    (sending := by rw [h.phase]; nofun)
    (receiving := fun _ => hi)

/-- The reply sequence leaves the invariant, in RECV and in SHUTDOWN (R175). -/
theorem CoreInv.replyClose {s : State} (h : CoreInv s) (hn : NoOutcome s) (hest : s.status.connState = .established)
    (hop : s.cmd.op = Instr.recv.opcode ∨ s.cmd.op = Instr.shutdown.opcode) (p : Word) :
    EngineInv (replyClose p s) := by
  have hv : s.status.rxbufValid = true := h.rxbuf.2 (.inl hest)
  have hc : CoreInv (Machine.replyClose p s) :=
    { h.withConn .closingByPeer s.status.rxbufValid (by decide) (iff_of_true hv (.inr rfl)) with }
  refine hc.waiting { hn with } (phaseConn := rfl) (phaseOp := ?_) nofun nofun nofun nofun
  show (decide (s.cmd.op = _) || decide (s.cmd.op = _)) = true
  simpa using hop

/-- A TimedOut leaves the invariant (R242). -/
theorem Receiving.rcvTimedOut {s t : State} (h : Receiving s) (hi : RecvInv s) (ht : rcvTimedOut s = .next t) :
    EngineInv t := by
  have hc : CoreInv (countTimeout s) := { h.core with }
  obtain he | ⟨hx, rfl⟩ := rcvTimedOut_cases ht
  · exact hc.ends he
  · have hr : Receiving (countTimeout s) := { h with core := hc, noOutcome := { h.noOutcome with } }
    exact hr.waiting (.of_not_exhausted hx) { hi with }

/-- A length announcement leaves the invariant (R243). -/
theorem Receiving.rcvPrefix {s t : State} (h : Receiving s) (hr : BelowRetries s) (hi : RecvInv s) {b : List Byte}
    (ht : rcvPrefix b s = .next t) : EngineInv t := by
  have hsegs : (BitVec.ofNat 32 (ceilDiv (prefixValue b).toNat s.cfg.mss.toNat)).toNat =
      ceilDiv (prefixValue b).toNat s.cfg.mss.toNat := by
    have := ceilDiv_le (r := (prefixValue b).toNat) (Params.wf_bounds h.core.params).1
    have := (prefixValue b).isLt
    rw [BitVec.toNat_ofNat]
    omega
  have hc : CoreInv (announce b s) := { h.core with expectedSegs := hsegs, noTotal := nofun }
  obtain rfl | he | ⟨rfl, hlow, hmax⟩ := rcvPrefix_cases ht
  · have hl : Receiving (logProto s) := { h with core := { h.core with }, noOutcome := { h.noOutcome with } }
    exact hl.waiting hr { hi with }
  · exact hc.ends he
  · have ha : Receiving (announce b s) := { h with core := hc, noOutcome := { h.noOutcome with } }
    exact ha.waiting hr { hi with inTotal := fun _ => hlow, totalFits := fun _ => hmax }

/-- A FIN|ACK leaves the invariant: the server is closing, the client has seen the FIN (R244). -/
theorem Receiving.rcvFinack {s t : State} (h : Receiving s) {b : List Byte} (ht : rcvFinack b s = .next t) :
    EngineInv t := by
  have hest := h.established
  obtain ⟨l, rfl | ⟨hrole, he⟩⟩ := rcvFinack_cases ht
  · exact CoreInv.replyClose (s := { s with status.csumLog := l, cmd.finalResult := s.prog.rxWritten })
      { h.core with } { h.noOutcome with } hest (.inl h.op) _
  · refine CoreInv.ends ?_ he
    exact { h.core with finSeen := fun _ => ⟨hrole, by simp [hest], by simp [hest]⟩ }

/-- What `accept_ok` says of the lengths: the payload fits the buffer and the announced total, and its length is a
32-bit number (R247). -/
theorem acceptOk_bounds {b : List Byte} {s : State} (h : acceptOk b s = true) :
    (s.prog.rxWritten + BitVec.ofNat 32 (b.length - 32)).toNat = s.prog.rxWritten.toNat + (b.length - 32) ∧
    s.prog.rxWritten.toNat + (b.length - 32) ≤ s.rcv.max.toNat ∧
    (s.status.rxTotalValid = true → s.prog.rxWritten.toNat + (b.length - 32) ≤ s.prog.rxTotal.toNat) := by
  have hm := s.rcv.max.isLt
  simp only [acceptOk, Bool.and_eq_true, Bool.or_eq_true, decide_eq_true_eq, Bool.not_eq_true'] at h
  obtain ⟨⟨-, hmax⟩, htot⟩ := h
  refine ⟨?_, hmax, fun hv => htot.resolve_left (by simp [hv])⟩
  rw [BitVec.toNat_add, BitVec.toNat_ofNat]
  omega

/-- An accepted segment leaves the invariant (R248, R251). -/
theorem Receiving.rcvAccept {s t : State} (h : Receiving s) (hr : BelowRetries s) (hi : RecvInv s) {b : List Byte}
    (hok : acceptOk b s = true) (ht : rcvAccept b s = .next t) : EngineInv t := by
  obtain ⟨hw, hmax, htot⟩ := acceptOk_bounds hok
  have hest := h.established
  obtain ⟨ha, ht⟩ := rcvAccept_cases ht
  have hc : CoreInv (accepted b s) :=
    { h.core with
      memory := wf_writeBytes_of_admitted ha h.core.memory
      freshWindow := fun hf => absurd hf (by simp [accepted, hest]) }
  obtain he | ⟨rfl, hne⟩ := ht
  · exact hc.ends he
  · have hrec : Receiving (accepted b s) := { h with core := hc, noOutcome := { h.noOutcome with } }
    exact hrec.waiting hr {
      inBuffer := hw.trans_le hmax
      inTotal := fun hv => Nat.lt_of_le_of_ne (hw.trans_le (htot hv)) fun he => hne hv (BitVec.eq_of_toNat_eq he)
      totalFits := hi.totalFits
      window := by
        show (minWindow _ _).toNat = min _ (_ - (s.prog.rxWritten + BitVec.ofNat 32 (b.length - 32)).toNat)
        rw [minWindow_toNat, BitVec.toNat_sub_of_le (by rw [BitVec.le_def]; omega)]
        rfl }

/-- Every event of RCV_WAIT leaves the invariant (R241, R242, R246). -/
theorem EngineInv.rxRcvWait {s t : State} (h : EngineInv s) (hp : s.status.phase = .rcvWait) {e : RxEvent}
    (ht : rxRcvWait e s = .next t) : EngineInv t := by
  have hn := h.noOutcome (by rw [hp]; nofun)
  have hest : s.status.connState = .established := by simpa [phaseConnOk, hp] using h.phaseConn
  have hop : s.cmd.op = Instr.recv.opcode := by simpa [phaseOpOk, hp] using h.phaseOp
  have hi := h.receiving hp
  cases e with
  | timedOut => exact Receiving.rcvTimedOut ⟨h.core, hn, hest, hop, hp⟩ hi ht
  | datagram b src =>
    have hs : Receiving { s with consecTo := 0 } := ⟨{ h.core with }, { hn with }, hest, hop, hp⟩
    have hr : BelowRetries { s with consecTo := 0 } := .of_zero rfl
    have hi' : RecvInv { s with consecTo := 0 } := { hi with }
    have hlog : EngineInv (logProto { s with consecTo := 0 }) :=
      Receiving.waiting ⟨{ h.core with }, { hn with }, hest, hop, hp⟩ hr { hi with }
    simp only [Machine.rxRcvWait] at ht
    split at ht
    case h_1 => exact hs.rcvPrefix hr hi' ht
    case h_2 => exact hs.rcvFinack ht
    case h_3 =>
      obtain ⟨l, p, rfl⟩ := rcvAck_eq ht
      exact Receiving.waiting ⟨{ h.core with }, { hn with }, hest, hop, hp⟩ hr { hi with }
    case h_7 =>
      split at ht
      · exact hs.rcvAccept hr hi' ‹_› ht
      · obtain ⟨l, rfl⟩ := rcvReject_eq ht
        exact Receiving.waiting ⟨{ h.core with }, { hn with }, hest, hop, hp⟩ hr { hi with }
    all_goals
      cases ht
      exact hlog

/-! ### The handshake and teardown event rules (R162 to R177) -/

/-- The rule of the engine's phase leaves the invariant. -/
theorem EngineInv.dispatchEvent {s t : State} (h : EngineInv s) {e : RxEvent} (ht : dispatchEvent e s = .next t) :
    EngineInv t := by
  have hc := h.core
  have hconn := h.phaseConn
  have hop := h.phaseOp
  cases hp : s.status.phase <;> simp only [Machine.dispatchEvent, hp] at ht <;>
    simp only [phaseConnOk, phaseOpOk, hp, decide_eq_true_eq] at hconn hop
  case idle =>
    cases ht
    exact h
  case connWaitSynack =>
    obtain he | ⟨l, w, a, rfl⟩ := rxConnWaitSynack_cases ht
    · exact hc.ends he
    · refine CoreInv.complete ?_ 0
      exact { hc.withConn .established true (by decide) (by decide) with }
  case accWaitSyn =>
    obtain rfl | he | ⟨l, p, w, a, rfl⟩ := rxAccWaitSyn_cases ht
    · exact h
    · exact hc.ends he
    · have hn := h.noOutcome (by rw [hp]; nofun)
      refine CoreInv.waiting ?_ { hn with } (decide_eq_true hconn) (decide_eq_true hop) nofun nofun nofun nofun
      exact { hc with }
  case accWaitAck =>
    obtain he | ⟨l, w, rfl⟩ := rxAccWaitAck_cases ht
    · exact hc.ends he
    · refine CoreInv.complete ?_ _
      exact { hc.withConn .established true (by decide) (by decide) with }
  case sndWaitAck => exact h.rxSndWaitAck hp ht
  case rcvWait => exact h.rxRcvWait hp ht
  case waitFinalAck =>
    obtain he | ⟨l, rfl⟩ := rxWaitFinalAck_cases ht
    · exact hc.ends he
    · refine CoreInv.complete ?_ _
      exact { hc.withConn .closed false (by decide) (by decide) with }
  case shdWaitAck =>
    obtain he | ⟨l, rfl⟩ := rxShdWaitAck_cases ht
    · exact hc.ends he
    · have hn := h.noOutcome (by rw [hp]; nofun)
      refine CoreInv.waiting ?_ { hn with } (decide_eq_true hconn) (decide_eq_true hop) nofun nofun nofun nofun
      exact { hc with }
  case shdWaitFin =>
    obtain he | ⟨l, a, rfl⟩ := rxShdWaitFin_cases ht
    · exact hc.ends he
    · refine CoreInv.complete ?_ 0
      exact { hc.withConn .closed false (by decide) (by decide) with }

/-! ### Issue (R120 to R125) -/

/-- The record that OPEN restores meets the clauses (R124, R320). -/
theorem CoreInv.openReset {s : State} (h : CoreInv s) : CoreInv (openReset s) :=
  { (resetWith_inv h.params).core with
    memory := h.memory
    recvBuffer := h.recvBuffer }

/-- The issue part of every command leaves the invariant, from latched operands. -/
theorem CoreInv.exec {i : Instr} {s t : State} (h : CoreInv s) (hn : NoOutcome s) (hop : s.cmd.op = i.opcode)
    (ht : exec i s = .next t) : EngineInv t := by
  cases i <;> simp only [Machine.exec] at ht
  case openConn =>
    cases ht
    exact h.openReset.complete 0
  case connect =>
    obtain he | ⟨hp, ht⟩ := whenPre_ends ht
    · exact h.ends he
    have hinv := of_decide_eq_true hp
    cases ht
    refine CoreInv.waiting ?_ { hn with } hp (decide_eq_true hop) (fun _ => rfl) nofun nofun nofun
    exact { h with
      listenRole := fun hl => nomatch hinv.symm.trans hl
      finSeen := fun hf => absurd hinv (h.finSeen hf).2.1 }
  case listen =>
    obtain he | ⟨hp, ht⟩ := whenPre_ends ht
    · exact h.ends he
    have hinv := of_decide_eq_true hp
    cases ht
    refine CoreInv.complete ?_ 0
    exact { h with
      notClosingByHost := nofun
      rxbuf := iff_of_false (fun hv => by simpa [hinv] using h.rxbuf.1 hv) nofun
      listenRole := fun _ => rfl
      finSeen := fun hf => absurd hinv (h.finSeen hf).2.1
      freshWindow := fun _ => h.freshWindow (.inl hinv) }
  case accept =>
    obtain he | ⟨hp, ht⟩ := whenPre_ends ht
    · exact h.ends he
    cases ht
    refine CoreInv.waiting ?_ { hn with } hp (decide_eq_true hop) nofun nofun nofun nofun
    exact { h with }
  case send =>
    obtain he | ⟨hp, ht⟩ := whenPre_ends ht
    · exact h.ends he
    refine Sending.startRound ?_ (Nat.zero_le _) ?_ ht
    · exact ⟨{ h with }, { hn with }, of_decide_eq_true hp, hop, .of_zero rfl⟩
    · show (s.conn.seq - s.conn.seq).toNat ≤ _
      rw [BitVec.sub_self]
      exact Nat.zero_le _
  case recv =>
    obtain he | ⟨hp, ht⟩ := whenPre_ends ht
    · exact h.ends he
    have hest := of_decide_eq_true hp
    cases ht
    refine Receiving.waiting ⟨?_, { hn with }, hest, hop, rfl⟩ (.of_zero rfl) ?_
    · exact { h with
        freshWindow := fun hf => absurd hf (by simp [hest])
        expectedSegs := (ceilDiv_zero (Params.wf_bounds h.params).1).symm
        noTotal := fun _ => rfl }
    · exact {
        inBuffer := Nat.zero_le _
        inTotal := nofun
        totalFits := nofun
        window := minWindow_toNat .. }
  case shutdown =>
    obtain he | ⟨hest, rfl | rfl⟩ := execShutdown_cases ht
    · exact h.ends he
    · exact CoreInv.replyClose (s := { s with cmd.finalResult := 0 }) { h with } { hn with } hest (.inr hop) _
    · have hv := h.rxbuf.2 (.inl hest)
      refine CoreInv.waiting ?_ { hn with } rfl (decide_eq_true hop) nofun nofun nofun nofun
      exact { h.withConn .closingByPeer s.status.rxbufValid (by decide) (iff_of_true hv (.inr rfl)) with }
  case buildHeader => exact h.ends (execBuildHeader_ends ht)
  case sealSegment => exact h.ends (execSeal_ends ht)
  case verify => exact h.ends (execVerify_ends ht)
  case classify => exact h.ends (execClassify_ends ht)

/-- The issue of every command word leaves the invariant (R120, R125). -/
theorem EngineInv.issue {s t : State} (h : EngineInv s) {w : Word} (ht : issue w s = .next t) : EngineInv t := by
  have hl : CoreInv (latch (opcodeOf w) s) := { h.core with }
  obtain rfl | ⟨i, -, hop, ht⟩ := issue_cases ht
  · exact hl.fail _ _ nofun nofun
  · exact hl.exec ⟨rfl, rfl, nofun⟩ hop ht

/-! ### The step -/

/-- Every event leaves the invariant. -/
theorem EngineInv.applyInput {i : Input} {s t : State} (h : EngineInv s) (ht : applyInput i s = .next t) :
    EngineInv t := by
  obtain ⟨w, -, -, ht⟩ | ⟨e, -, ht⟩ | ⟨-, rfl⟩ | ⟨u, hu, rfl⟩ := applyInput_cases ht
  · exact h.issue ht
  · exact (h.storeDatagram e).dispatchEvent (rxEvent_cases ht)
  · exact h.hardwareReset
  · exact h.withHost hu

/-- Settles O48: the event is taken off the list, which the invariant does not read, and each event keeps it. -/
theorem everyStepKeepsTheEngineInvariant : Obligations.EveryStepKeepsTheEngineInvariant := by
  intro s t h ht
  obtain ⟨-, rfl⟩ | ⟨i, left, -, ht⟩ := step_cases ht
  · exact h
  · exact EngineInv.applyInput (s := { s with inputs := left })
      (h.withHost (u := { s.hostPart with inputs := left }) ⟨id, id, id⟩) ht

end Sys2Proof.Machine
end

section
/-! PROOFS. What no event but a few can move: the parameters, the engine's registers, CWND and SSTHRESH (R28, R29, R36,
R130, R306). -/

namespace Sys2Proof.Machine

/-- `t` has the parameters, CWND and SSTHRESH of `s`. -/
structure KeepsWindows (s t : State) : Prop where
  cfg : t.cfg = s.cfg
  cwnd : t.conn.cwnd = s.conn.cwnd
  ssthresh : t.conn.ssthresh = s.conn.ssthresh

theorem KeepsWindows.refl (s : State) : KeepsWindows s s := ⟨rfl, rfl, rfl⟩

theorem Ends.keepsWindows {s t : State} (h : Ends s t) : KeepsWindows s t := by
  cases h <;> exact ⟨rfl, rfl, rfl⟩

/-! ### Commands -/

theorem startRound_keepsWindows {s t : State} (h : startRound s = .next t) : KeepsWindows s t := by
  obtain ⟨-, rfl⟩ | ⟨-, u, rfl, rfl, -⟩ := startRound_cases h
  · exact ⟨rfl, rfl, rfl⟩
  · exact ⟨rfl, rfl, rfl⟩

/-- The CONN_STATE check keeps what the command behind it keeps (R123). -/
theorem whenPre_keepsWindows {i : Instr} {s t : State} {body : Out} (h : whenPre i s body = .next t)
    (hb : body = .next t → KeepsWindows s t) : KeepsWindows s t := by
  obtain he | ⟨-, h⟩ := whenPre_ends h
  · exact he.keepsWindows
  · exact hb h

/-- The issue part of every command but OPEN keeps CWND and SSTHRESH. -/
theorem exec_keepsWindows {i : Instr} {s t : State} (hi : i ≠ .openConn) (h : exec i s = .next t) :
    KeepsWindows s t := by
  cases i <;> simp only [exec] at h
  case openConn => exact absurd rfl hi
  case send => exact whenPre_keepsWindows h fun h => { startRound_keepsWindows h with }
  case shutdown =>
    obtain he | ⟨-, rfl | rfl⟩ := execShutdown_cases h
    · exact he.keepsWindows
    · exact ⟨rfl, rfl, rfl⟩
    · exact ⟨rfl, rfl, rfl⟩
  case buildHeader => exact (execBuildHeader_ends h).keepsWindows
  case sealSegment => exact (execSeal_ends h).keepsWindows
  case verify => exact (execVerify_ends h).keepsWindows
  case classify => exact (execClassify_ends h).keepsWindows
  case connect | listen | accept | recv =>
    refine whenPre_keepsWindows h fun h => ?_
    cases h
    exact ⟨rfl, rfl, rfl⟩

/-- No issue changes a parameter. -/
theorem issue_cfg {w : Word} {s t : State} (h : issue w s = .next t) : t.cfg = s.cfg := by
  obtain rfl | ⟨i, -, -, h⟩ := issue_cases h
  · rfl
  by_cases hi : i = .openConn
  · subst hi
    cases h
    rfl
  · exact (exec_keepsWindows hi h).cfg

/-! ### RX events -/

/-- Every event of RCV_WAIT keeps CWND and SSTHRESH. -/
theorem rxRcvWait_keepsWindows {e : RxEvent} {s t : State} (h : rxRcvWait e s = .next t) : KeepsWindows s t := by
  cases e with
  | timedOut =>
    obtain he | ⟨-, rfl⟩ := rcvTimedOut_cases h
    · exact { he.keepsWindows with }
    · exact ⟨rfl, rfl, rfl⟩
  | datagram b src =>
    simp only [rxRcvWait] at h
    split at h
    case h_1 =>
      obtain rfl | he | ⟨rfl, -⟩ := rcvPrefix_cases h
      · exact ⟨rfl, rfl, rfl⟩
      · exact { he.keepsWindows with }
      · exact ⟨rfl, rfl, rfl⟩
    case h_2 =>
      obtain ⟨l, rfl | ⟨-, he⟩⟩ := rcvFinack_cases h
      · exact ⟨rfl, rfl, rfl⟩
      · exact { he.keepsWindows with }
    case h_3 =>
      obtain ⟨l, p, rfl⟩ := rcvAck_eq h
      exact ⟨rfl, rfl, rfl⟩
    case h_7 =>
      split at h
      · obtain ⟨-, he | ⟨rfl, -⟩⟩ := rcvAccept_cases h
        · exact { he.keepsWindows with }
        · exact ⟨rfl, rfl, rfl⟩
      · obtain ⟨l, rfl⟩ := rcvReject_eq h
        exact ⟨rfl, rfl, rfl⟩
    all_goals
      cases h
      exact ⟨rfl, rfl, rfl⟩

/-- The rule of every phase but SND_WAIT_ACK keeps CWND and SSTHRESH. -/
theorem dispatchEvent_keepsWindows {e : RxEvent} {s t : State} (hs : s.status.phase ≠ .sndWaitAck)
    (h : dispatchEvent e s = .next t) : KeepsWindows s t := by
  cases hp : s.status.phase <;> simp only [dispatchEvent, hp] at h
  case idle =>
    cases h
    exact .refl s
  case connWaitSynack =>
    obtain he | ⟨l, w, a, rfl⟩ := rxConnWaitSynack_cases h
    · exact he.keepsWindows
    · exact ⟨rfl, rfl, rfl⟩
  case accWaitSyn =>
    obtain rfl | he | ⟨l, p, w, a, rfl⟩ := rxAccWaitSyn_cases h
    · exact .refl _
    · exact he.keepsWindows
    · exact ⟨rfl, rfl, rfl⟩
  case accWaitAck =>
    obtain he | ⟨l, w, rfl⟩ := rxAccWaitAck_cases h
    · exact he.keepsWindows
    · exact ⟨rfl, rfl, rfl⟩
  case sndWaitAck => exact absurd hp hs
  case rcvWait => exact rxRcvWait_keepsWindows h
  case waitFinalAck =>
    obtain he | ⟨l, rfl⟩ := rxWaitFinalAck_cases h
    · exact he.keepsWindows
    · exact ⟨rfl, rfl, rfl⟩
  case shdWaitAck =>
    obtain he | ⟨l, rfl⟩ := rxShdWaitAck_cases h
    · exact he.keepsWindows
    · exact ⟨rfl, rfl, rfl⟩
  case shdWaitFin =>
    obtain he | ⟨l, a, rfl⟩ := rxShdWaitFin_cases h
    · exact he.keepsWindows
    · exact ⟨rfl, rfl, rfl⟩

theorem advance_cfg {s t : State} (h : advance s = .next t) : t.cfg = s.cfg := by
  unfold advance at h
  dsimp only at h
  split at h
  · have := (startRound_keepsWindows h).cfg
    simpa using this
  · cases h
    rfl

/-- No event of SND_WAIT_ACK changes a parameter. -/
theorem rxSndWaitAck_cfg {e : RxEvent} {s t : State} (h : rxSndWaitAck e s = .next t) : t.cfg = s.cfg := by
  cases e with
  | timedOut =>
    simp only [rxSndWaitAck, sndTimedOut] at h
    split at h
    · cases h
      rfl
    · exact (startRound_keepsWindows h).cfg
  | datagram b src =>
    simp only [rxSndWaitAck, sndAck] at h
    split at h
    · cases h
      rfl
    split at h
    · split at h
      · simpa using advance_cfg h
      · simpa using advance_cfg h
    · simpa using advance_cfg h

/-- No RX event changes a parameter. -/
theorem rxEvent_cfg {e : RxEvent} {s t : State} (h : rxEvent e s = .next t) : t.cfg = s.cfg := by
  have hd := rxEvent_cases h
  rw [← storeDatagram_cfg e s]
  by_cases hp : (storeDatagram e s).status.phase = .sndWaitAck
  · simp only [dispatchEvent, hp] at hd
    exact rxSndWaitAck_cfg hd
  · exact (dispatchEvent_keepsWindows hp hd).cfg

/-! ### The step -/

/-- Settles O52: a command, an RX event and reset keep the parameters, and every other event changes the host's part of
the state only. -/
theorem onlyEngineEventsChangeTheEngine : Obligations.OnlyEngineEventsChangeTheEngine := by
  intro s t i left hi ht
  rw [step_of_takeNext hi] at ht
  obtain ⟨w, rfl, hp, h⟩ | ⟨e, rfl, h⟩ | ⟨rfl, rfl⟩ | ⟨u, -, rfl⟩ := applyInput_cases ht
  · exact ⟨(issue_cfg h :), fun _ _ hw => absurd rfl (hw hp w)⟩
  · exact ⟨(rxEvent_cfg h :), nofun⟩
  · exact ⟨rfl, fun _ hr => absurd rfl hr⟩
  · exact ⟨rfl, fun _ _ _ => ⟨rfl, rfl, rfl, rfl, rfl, rfl, rfl, rfl, rfl, rfl, _, _, _, _, _, rfl⟩⟩

/-- An event that moves CWND or SSTHRESH is an OPEN, an RX event of SND_WAIT_ACK, or reset. -/
theorem applyInput_keepsWindows {i : Input} {s t : State} (h : applyInput i s = .next t) :
    KeepsWindows s t ∨ (s.status.phase = .sndWaitAck ∧ i.isRx = true) ∨ i = .hwReset ∨
      (s.status.phase = .idle ∧ ∃ w, i = .regWrite 0x20 4 w ∧ decode w = .ok .openConn) := by
  obtain ⟨w, rfl, hp, h⟩ | ⟨e, rfl, h⟩ | ⟨rfl, -⟩ | ⟨u, -, rfl⟩ := applyInput_cases h
  · obtain rfl | ⟨i, hd, -, h⟩ := issue_cases h
    · exact .inl ⟨rfl, rfl, rfl⟩
    by_cases hi : i = .openConn
    · exact .inr (.inr (.inr ⟨hp, w, rfl, hi ▸ hd⟩))
    · exact .inl { exec_keepsWindows hi h with }
  · by_cases hp : s.status.phase = .sndWaitAck
    · exact .inr (.inl ⟨hp, rfl⟩)
    · have hk := dispatchEvent_keepsWindows (by simpa using hp) (rxEvent_cases h)
      exact .inl ⟨by simpa using hk.cfg, by simpa using hk.cwnd, by simpa using hk.ssthresh⟩
  · exact .inr (.inr (.inl rfl))
  · exact .inl ⟨rfl, rfl, rfl⟩

/-- Settles O54: every other event keeps both registers. -/
theorem onlyTheSendEngineMovesTheCongestionWindow : Obligations.OnlyTheSendEngineMovesTheCongestionWindow := by
  intro s t i left hi ht hne
  rw [step_of_takeNext hi] at ht
  obtain hk | hmove := applyInput_keepsWindows ht
  · obtain hne | hne := hne
    · exact absurd hk.cwnd hne
    · exact absurd hk.ssthresh hne
  · exact hmove

end Sys2Proof.Machine
end

section
/-! PROOFS. What a register read delivers (R34, R126), and the bits of STATUS (R40, R50). -/

namespace Sys2Proof.Machine

/-! ### The register map (R34) -/

/-- Every word offset with a register, and what a read of it delivers. -/
def registerMap (s : State) : List (Nat × Word) :=
  [(0x00, 0x4D544350#32), (0x04, s.cfg.mss), (0x08, s.cfg.initWindow.setWidth 32), (0x0C, s.cfg.initCwnd),
   (0x10, s.cfg.initSsthresh), (0x14, s.cfg.ackTimeoutUs), (0x18, s.cfg.maxRetries), (0x20, 0#32),
   (0x24, s.arg0), (0x28, s.arg1), (0x2C, s.result), (0x30, statusWord s),
   (0x34, if s.irqEn then 1#32 else 0#32),
   (0x40, s.conn.seq), (0x44, s.conn.ack), (0x48, s.conn.cwnd), (0x4C, s.conn.ssthresh),
   (0x50, s.conn.peerWindow ++ s.conn.currWindow), (0x54, s.conn.peerAddr), (0x58, s.conn.peerFinSeq),
   (0x5C, s.count.txDup), (0x60, s.count.rxDup), (0x64, s.count.timeout), (0x68, s.count.halve),
   (0x6C, s.prog.roundStart), (0x70, s.prog.txDelivered), (0x74, s.prog.rxWritten), (0x78, s.prog.rxTotal),
   (0x7C, s.prog.rxExpectedSegs)]

/-- The map's offsets are admitted, and the register at each reads as the map says. -/
theorem readReg_of_mem_registerMap (s : State) :
    ∀ p ∈ registerMap s, regAccessOk p.1 4 = true ∧ readReg (Reg.ofOffset p.1) s = p.2 := by
  simp [registerMap, regAccessOk, Reg.ofOffset, readReg, ctrlWord, bit]

/-- An offset that the map leaves out is reserved (R44). -/
theorem mem_registerMap_or_reserved (s : State) (o : Nat) :
    (o, readReg (Reg.ofOffset o) s) ∈ registerMap s ∨ Reg.ofOffset o = .reserved := by
  unfold Reg.ofOffset
  split
  case h_30 => exact .inr rfl
  all_goals exact .inl (by simp [registerMap, readReg, ctrlWord, bit])

/-- An admitted register read delivers the register and changes nothing else (R126). -/
theorem step_regRead {s : State} {left : List Input} {o : Nat}
    (hi : takeNext s.status.phase s.inputs = some (.regRead o 4, left)) (ho : regAccessOk o 4 = true) :
    step s = .next { s with inputs := left, readData := readReg (Reg.ofOffset o) { s with inputs := left } } := by
  rw [step_of_takeNext hi, applyInput, if_pos ho]

/-- Settles O12: an offset is in the register map, or it is reserved and reads 0. -/
theorem registerMapReads : Obligations.RegisterMapReads := by
  intro s left o hi
  refine ⟨fun v hv => ?_, fun hv hal hle => ?_⟩
  · obtain ⟨ho, hr⟩ := readReg_of_mem_registerMap { s with inputs := left } (o, v) hv
    rw [step_regRead hi ho, hr]
  · have ho : regAccessOk o 4 = true := by simp [regAccessOk, hal, hle]
    obtain hm | hr := mem_registerMap_or_reserved { s with inputs := left } o
    · exact absurd hm (hv _)
    · rw [step_regRead hi ho, hr]
      rfl

/-! ### The bits of STATUS (R40, R50) -/

/-- A flag's word has the flag at its own bit and nothing elsewhere. -/
theorem getElem_bit (b : Bool) (i j : Nat) (hj : j < 32) : (bit b i)[j] = (b && decide (i = j)) := by
  cases b with
  | false => simp [bit]
  | true => exact (BitVec.getElem_twoPow (i := i) hj).trans (by simp [eq_comm])

theorem getElem_of_toNat_lt {x : Word} {n j : Nat} (h : x.toNat < 2 ^ n) (hn : n ≤ j) (hj : j < 32) :
    x[j] = false :=
  Nat.testBit_lt_two_pow (Nat.lt_of_lt_of_le h (Nat.pow_le_pow_right (by decide) hn))

/-- The codes fit the widths of their fields (R21, R22, R45, R291). -/
@[simp] theorem ErrCode.getElem_code_high (c : ErrCode) {j : Nat} (hn : 4 ≤ j) (hj : j < 32) : c.code[j] = false :=
  getElem_of_toNat_lt (by cases c <;> decide) hn hj

@[simp] theorem ConnState.getElem_code_high (c : ConnState) {j : Nat} (hn : 3 ≤ j) (hj : j < 32) :
    c.code[j] = false :=
  getElem_of_toNat_lt (by cases c <;> decide) hn hj

@[simp] theorem Role.getElem_code_high (r : Role) {j : Nat} (hn : 1 ≤ j) (hj : j < 32) : r.code[j] = false :=
  getElem_of_toNat_lt (by cases r <;> decide) hn hj

@[simp] theorem Phase.getElem_code_high (p : Phase) {j : Nat} (hn : 4 ≤ j) (hj : j < 32) : p.code[j] = false :=
  getElem_of_toNat_lt (by cases p <;> decide) hn hj

/-- Bit `j` of STATUS, from the flags and the shifted codes it is made of (R40). -/
theorem getElem_statusWord (s : State) (j : Nat) (hj : j < 32) : (statusWord s)[j] =
    (busy s && decide (0 = j) || s.status.done && decide (1 = j) || s.status.err && decide (2 = j) ||
      s.status.cmdOverrun && decide (3 = j) || (s.status.errCode.code <<< 4)[j] ||
      (s.status.connState.code <<< 8)[j] || (s.status.role.code <<< 11)[j] ||
      s.status.finSeen && decide (12 = j) || s.status.csumLog && decide (13 = j) ||
      s.status.protoLog && decide (14 = j) || s.status.rxbufValid && decide (15 = j) ||
      (s.status.phase.code <<< 16)[j] || s.status.rxTotalValid && decide (20 = j)) := by
  simp only [statusWord, BitVec.getElem_or, getElem_bit]

/-- A field of codes holds its code: every other part of STATUS lies outside the field's bits. -/
theorem statusWord_errCode (s : State) : (statusWord s).extractLsb' 4 4 = s.status.errCode.code.setWidth 4 := by
  ext i hi
  interval_cases i <;> simp [getElem_statusWord]

theorem statusWord_connState (s : State) : (statusWord s).extractLsb' 8 3 = s.status.connState.code.setWidth 3 := by
  ext i hi
  interval_cases i <;> simp [getElem_statusWord]

theorem statusWord_phase (s : State) : (statusWord s).extractLsb' 16 4 = s.status.phase.code.setWidth 4 := by
  ext i hi
  interval_cases i <;> simp [getElem_statusWord]

/-- No part of STATUS reaches bits 31:21. -/
theorem statusWord_reserved (s : State) : (statusWord s).extractLsb' 21 11 = 0#11 := by
  ext i hi
  interval_cases i <;> simp [getElem_statusWord]

theorem statusWord_role (s : State) : (statusWord s).getLsbD 11 = decide (s.status.role = .server) := by
  have hr : s.status.role.code[0] = decide (s.status.role = .server) := by
    cases s.status.role <;> rfl
  simp [getElem_statusWord, hr]

/-- The flags of STATUS stand at their bits. -/
theorem statusWord_flags (s : State) :
    (statusWord s).getLsbD 0 = busy s ∧ (statusWord s).getLsbD 1 = s.status.done ∧
    (statusWord s).getLsbD 2 = s.status.err ∧ (statusWord s).getLsbD 3 = s.status.cmdOverrun ∧
    (statusWord s).getLsbD 12 = s.status.finSeen ∧ (statusWord s).getLsbD 13 = s.status.csumLog ∧
    (statusWord s).getLsbD 14 = s.status.protoLog ∧ (statusWord s).getLsbD 15 = s.status.rxbufValid ∧
    (statusWord s).getLsbD 20 = s.status.rxTotalValid := by
  simp [getElem_statusWord]

/-- Settles O13: flag by flag, and field by field from the code each field holds. -/
theorem statusWordHoldsItsFields : Obligations.StatusWordHoldsItsFields := by
  intro s
  obtain ⟨hbusy, hdone, herr, hover, hfin, hcsum, hproto, hbuf, htot⟩ := statusWord_flags s
  refine ⟨hbusy, hdone, herr, hover, ?_, ?_, statusWord_role s, hfin, hcsum, hproto, hbuf, ?_, htot,
    statusWord_reserved s⟩
  · rw [statusWord_errCode]
    cases s.status.errCode <;> rfl
  · rw [statusWord_connState]
    cases s.status.connState <;> rfl
  · rw [statusWord_phase]
    cases s.status.phase <;> rfl

end Sys2Proof.Machine
end

section
/-! PROOFS. The host's accesses that have no move, and what its other accesses to host memory do (R61, R63, R74, R327,
I6, I9). -/

namespace Sys2Proof.Machine

/-! ### Register accesses (R61) -/

/-- Settles O15: the misfit fails one of the three tests of R61. -/
theorem misfitRegisterAccessIsRefused : Obligations.MisfitRegisterAccessIsRefused := by
  intro s left o n v h
  have hbad : ¬ regAccessOk o n = true := by
    simp only [regAccessOk, Bool.and_eq_true, decide_eq_true_eq]
    omega
  refine ⟨fun hi => ?_, fun hi => ?_⟩
  · rw [step_of_takeNext hi, applyInput, if_neg hbad]
  · rw [step_of_takeNext hi, applyInput, if_neg hbad]

/-! ### The host's own memory (R63, R74) -/

theorem hostRangeOk_iff (a n : Nat) : hostRangeOk a n = true ↔ a + n ≤ 4294967296 := decide_eq_true_iff

/-- Two ranges overlap when they share a byte, the larger of their two first bytes. -/
theorem rangesOverlap_iff (a n b m : Nat) :
    rangesOverlap a n b m = true ↔ ∃ y, a ≤ y ∧ y < a + n ∧ b ≤ y ∧ y < b + m := by
  simp only [rangesOverlap, Bool.and_eq_true, decide_eq_true_eq]
  constructor
  · intro h
    exact ⟨max a b, by omega⟩
  · rintro ⟨y, h⟩
    omega

theorem inSendSource_iff (s : State) (a n : Nat) :
    inSendSource s a n = true ↔ (s.status.phase ≠ .idle ∧ s.cmd.op = 0x05#8) ∧
      ∃ y, a ≤ y ∧ y < a + n ∧ s.snd.src.toNat ≤ y ∧ y < s.snd.src.toNat + s.snd.len.toNat := by
  simp only [inSendSource, busy, Bool.and_eq_true, decide_eq_true_eq, rangesOverlap_iff]
  rfl

theorem inRecvDest_iff (s : State) (a n : Nat) :
    inRecvDest s a n = true ↔ (s.status.phase ≠ .idle ∧ s.cmd.op = 0x06#8) ∧
      ∃ y, a ≤ y ∧ y < a + n ∧ s.rcv.dst.toNat ≤ y ∧ y < s.rcv.dst.toNat + s.rcv.max.toNat := by
  simp only [inRecvDest, busy, Bool.and_eq_true, decide_eq_true_eq, rangesOverlap_iff]
  rfl

/-- A host write has a move exactly when it stays inside the address space and off the ranges of R74 (b); it then
stores its bytes. -/
theorem hostWrite_next_iff {a : Nat} {bs : List Byte} {s t : State} :
    hostWrite a bs s = .next t ↔
      a + bs.length ≤ 4294967296 ∧ ¬ inSendSource s a bs.length = true ∧ ¬ inRecvDest s a bs.length = true ∧
        t = { s with mem := s.mem.writeBytes a bs } := by
  rw [← hostRangeOk_iff, hostWrite]
  cases hostRangeOk a bs.length
  · simp
  · cases inSendSource s a bs.length <;> cases inRecvDest s a bs.length <;> simp [eq_comm]

/-- A host write that meets a range of R74 (b) has no move. -/
theorem hostWrite_race {a : Nat} {bs : List Byte} {s : State} (ha : a + bs.length ≤ 4294967296)
    (hm : inSendSource s a bs.length = true ∨ inRecvDest s a bs.length = true) :
    hostWrite a bs s = .refused (.hostRace .write a bs.length) := by
  rw [hostWrite, (hostRangeOk_iff _ _).2 ha, if_neg nofun, if_pos ((Bool.or_eq_true _ _).mpr hm)]

theorem hostRead_race {a n : Nat} {s : State} (ha : a + n ≤ 4294967296) (hm : inRecvDest s a n = true) :
    hostRead a n s = .refused (.hostRace .read a n) := by
  rw [hostRead, (hostRangeOk_iff _ _).2 ha, if_neg nofun, if_pos hm]

/-- Settles O17: an access that shares a byte with a barred range is refused; a write that shares none has a move, which
stores its bytes. -/
theorem hostAccessToABorrowedRangeHasNoMove : Obligations.HostAccessToABorrowedRangeHasNoMove := by
  intro s left a n bs hwf ha
  refine ⟨fun hi hm => ?_, fun hn hi hm => ?_, fun hi hsrc hdst => ?_⟩
  · rw [step_of_takeNext hi]
    exact hostWrite_race ha (hm.imp (inSendSource_iff s a _).2 (inRecvDest_iff s a _).2)
  · rw [step_of_takeNext hi]
    exact hostRead_race hn ((inRecvDest_iff s a n).2 hm)
  · rw [step_of_takeNext hi]
    exact ⟨_, hostWrite_next_iff.2
        ⟨ha, fun h => hsrc ((inSendSource_iff s a _).1 h), fun h => hdst ((inRecvDest_iff s a _).1 h), rfl⟩,
      Memory.get_writeBytes_inside s.mem a bs hwf ha, Memory.get_writeBytes_outside s.mem a bs hwf ha⟩

end Sys2Proof.Machine
end

section
/-! PROOFS. What a step reads and writes of host memory: only bytes the host has lent, so that two runs from memories
that agree on the bytes lent for reading write the same bytes (R62, R63, R69, R71). -/

namespace Sys2Proof.Machine

/-! ### Two runs of one rule on two memories -/

/-- `s` with the host memory `m`. -/
def State.withMem (s : State) (m : Memory) : State := { s with mem := m }

@[simp] theorem State.withMem_lent (s : State) (m : Memory) : (s.withMem m).lent = s.lent := rfl
@[simp] theorem State.withMem_mem (s : State) (m : Memory) : (s.withMem m).mem = m := rfl

/-- `m` holds the bytes of `m₀` wherever the host has lent them for reading. -/
def SameLent (l : List LentRange) (m₀ m : Memory) : Prop :=
  ∀ x, (∃ r ∈ l, r.kind = .read ∧ r.base ≤ x ∧ x < r.base + r.len) → m.get x = m₀.get x

/-- `n₀` and `n` are `m₀` and `m` after one and the same admitted write, of no byte for a rule that writes none. -/
def Written (l : List LentRange) (m₀ m n₀ n : Memory) : Prop :=
  ∃ a v, admitted l a v.length .write = true ∧ n₀ = m₀.writeBytes a v ∧ n = m.writeBytes a v

/-- The outcomes `o` and `o'` of a rule on the memories `m₀` and `m` agree: where `o` is a next state, `o'` is that state
but for its memory, and both have written the same admitted bytes. -/
def Agrees (l : List LentRange) (m₀ m : Memory) (o o' : Out) : Prop :=
  ∀ t, o = .next t → ∃ n, Written l m₀ m t.mem n ∧ o' = .next (t.withMem n)

/-- An admitted read finds the same bytes in both memories. -/
theorem SameLent.readBytes {l : List LentRange} {m₀ m : Memory} (h : SameLent l m₀ m) {a n : Nat}
    (ha : admitted l a n .read = true) : m.readBytes a n = m₀.readBytes a n := by
  refine List.map_congr_left fun i hi => h (a + i) ?_
  have hi := List.mem_range.1 hi
  exact (admitted_byte ha (a + i) (by omega) (by omega)).2

section
variable {l : List LentRange} {m₀ m : Memory}

theorem Written.refl : Written l m₀ m m₀ m := ⟨0, [], by simp [admitted], rfl, rfl⟩

theorem Agrees.next {t t' : State} {n : Memory} (h : Written l m₀ m t.mem n) (h' : t' = t.withMem n) :
    Agrees l m₀ m (.next t) (.next t') := by
  intro u hu
  cases hu
  exact ⟨n, h, congrArg Host.Outcome.next h'⟩

theorem Agrees.refused {r : Refusal} {o : Out} : Agrees l m₀ m (.refused r) o :=
  fun _ h => nomatch h

/-- Both runs take the same branch. -/
theorem Agrees.ite {c : Prop} [Decidable c] {o₁ o₂ o₁' o₂' : Out} (h₁ : Agrees l m₀ m o₁ o₁')
    (h₂ : Agrees l m₀ m o₂ o₂') : Agrees l m₀ m (if c then o₁ else o₂) (if c then o₁' else o₂') := by
  split
  · exact h₁
  · exact h₂

end

section
variable {s : State} {m : Memory} {a n : Nat}

/-- A rule that neither reads nor writes memory: both facts hold by the fields its next state names. -/
theorem Agrees.quiet {t t' : State} (h : t.mem = s.mem := by rfl) (h' : t' = t.withMem m := by rfl) :
    Agrees s.lent s.mem m (.next t) (.next t') := .next (h ▸ Written.refl) h'

/-- A MemRead hands the same bytes to the rest of its step. -/
theorem Agrees.memRead (hl : SameLent s.lent s.mem m) {k k' : List Byte → Out}
    (h : ∀ b, Agrees s.lent s.mem m (k b) (k' b)) :
    Agrees s.lent s.mem m (memRead s a n k) (memRead (s.withMem m) a n k') := by
  intro t ht
  obtain ⟨ha, ht⟩ := memRead_next ht
  have hk := h _ t ht
  rw [← hl.readBytes ha] at hk
  rwa [Machine.memRead, State.withMem_lent, State.withMem_mem, if_pos ha]

/-- A MemWrite writes the same bytes, before the rest of its step. -/
theorem Agrees.memWrite {v : List Byte} {k k' : State → Out}
    (h : ∀ n₀ n, Written s.lent s.mem m n₀ n →
      Agrees s.lent s.mem m (k (s.withMem n₀)) (k' (s.withMem n))) :
    Agrees s.lent s.mem m (memWrite s a v k) (memWrite (s.withMem m) a v k') := by
  intro t ht
  obtain ⟨ha, ht⟩ := memWrite_next ht
  have hk := h _ _ ⟨a, v, ha, rfl, rfl⟩ t ht
  rwa [Machine.memWrite, State.withMem_lent, State.withMem_mem, if_pos ha]

/-- The CONN_STATE check reads no memory (R122). -/
theorem Agrees.whenPre {i : Instr} {body body' : Out} (h : Agrees s.lent s.mem m body body') :
    Agrees s.lent s.mem m (whenPre i s body) (whenPre i (s.withMem m) body') :=
  .ite h .quiet

end

/-! ### The send engine -/

section
variable {s : State} {m : Memory}

/-- The chunks of a round are read from lent bytes (R205). -/
theorem transmitChunks_agrees (hl : SameLent s.lent s.mem m) (n i : Nat) :
    Agrees s.lent s.mem m (transmitChunks n i s) (transmitChunks n i (s.withMem m)) := by
  induction n generalizing i s with
  | zero => exact .quiet
  | succ n ih => exact .memRead hl fun p => ih (s := transmit s.conn.peerAddr (chunkSegment s i p) s) hl (i + 1)

theorem startRound_agrees (hl : SameLent s.lent s.mem m) :
    Agrees s.lent s.mem m (startRound s) (startRound (s.withMem m)) := by
  refine .ite .quiet ?_
  exact transmitChunks_agrees
    (s := beginRound (off s s.conn.seq).toNat (roundSize s (s.snd.len - off s s.conn.seq).toNat)
      { s with prog.txDelivered := off s s.conn.seq }) hl _ 0

/-- A choice between two states that does not look at memory. -/
theorem withMem_ite (c : Prop) [Decidable c] (t u : State) :
    (if c then t else u).withMem m = if c then t.withMem m else u.withMem m := apply_ite (State.withMem · m) c t u

theorem halveIfDup_withMem : halveIfDup (s.withMem m) = (halveIfDup s).withMem m := by
  simp only [halveIfDup, withMem_ite]
  rfl

theorem confirmRecorded_withMem : confirmRecorded (s.withMem m) = (confirmRecorded s).withMem m := by
  simp only [confirmRecorded, withMem_ite]
  rfl

theorem growCwnd_withMem : growCwnd (s.withMem m) = (growCwnd s).withMem m := by
  simp only [growCwnd, withMem_ite]
  rfl

theorem ackInOrder_withMem : ackInOrder (s.withMem m) = (ackInOrder s).withMem m :=
  growCwnd_withMem (s := { s with conn.seq := endSeq s s.snd.waitK.toNat })

theorem ackOutOfOrder_withMem (a : Word) : ackOutOfOrder a (s.withMem m) = (ackOutOfOrder a s).withMem m := by
  simp only [ackOutOfOrder, withMem_ite]
  rfl

theorem roundEnd_agrees (hl : SameLent s.lent s.mem m) :
    Agrees s.lent s.mem m (roundEnd s) (roundEnd (s.withMem m)) := by
  have h := startRound_agrees (s := confirmRecorded (halveIfDup s)) (m := m) (by simpa using hl)
  simpa [roundEnd, halveIfDup_withMem, confirmRecorded_withMem] using h

theorem advance_agrees (hl : SameLent s.lent s.mem m) :
    Agrees s.lent s.mem m (advance s) (advance (s.withMem m)) := by
  refine .ite ?_ .quiet
  exact roundEnd_agrees (s := { s with snd.waitK := s.snd.waitK + 1 }) hl

theorem sndAck_agrees (hl : SameLent s.lent s.mem m) (b : List Byte) :
    Agrees s.lent s.mem m (sndAck b s) (sndAck b (s.withMem m)) := by
  refine .ite (.ite ?_ ?_) ?_
  · have h := advance_agrees (s := ackInOrder { s with conn.peerWindow := winOf b }) (m := m) (by simpa using hl)
    rw [← ackInOrder_withMem, ackInOrder_lent, ackInOrder_mem] at h
    exact h
  · have h := advance_agrees (s := ackOutOfOrder (ackOf b) { s with conn.peerWindow := winOf b }) (m := m)
      (by simpa using hl)
    rw [← ackOutOfOrder_withMem, ackOutOfOrder_lent, ackOutOfOrder_mem] at h
    exact h
  · exact advance_agrees (s := countDup (logCsum s)) hl

theorem sndTimedOut_agrees (hl : SameLent s.lent s.mem m) :
    Agrees s.lent s.mem m (sndTimedOut s) (sndTimedOut (s.withMem m)) := by
  refine .ite .quiet ?_
  exact startRound_agrees (s := collapse (countTimeout s)) hl

theorem rxSndWaitAck_agrees (hl : SameLent s.lent s.mem m) (e : RxEvent) :
    Agrees s.lent s.mem m (rxSndWaitAck e s) (rxSndWaitAck e (s.withMem m)) := by
  cases e with
  | timedOut => exact sndTimedOut_agrees hl
  | datagram b src => exact .ite .quiet (sndAck_agrees (s := { s with consecTo := 0 }) hl b)

/-! ### The receive engine -/

theorem rcvPrefix_agrees (b : List Byte) :
    Agrees s.lent s.mem m (rcvPrefix b s) (rcvPrefix b (s.withMem m)) :=
  .ite .quiet (.ite .quiet (.ite .quiet (.ite .quiet .quiet)))

theorem rcvFinack_agrees (b : List Byte) :
    Agrees s.lent s.mem m (rcvFinack b s) (rcvFinack b (s.withMem m)) := by
  cases hr : s.status.role <;> simp only [rcvFinack, logCsumUnless_eq, State.withMem, hr]
  · exact .quiet
  · exact .quiet

theorem rcvAck_agrees (b : List Byte) : Agrees s.lent s.mem m (rcvAck b s) (rcvAck b (s.withMem m)) := by
  simp only [rcvAck, logCsumUnless_eq]
  exact .ite .quiet .quiet

theorem rcvAccept_agrees (b : List Byte) :
    Agrees s.lent s.mem m (rcvAccept b s) (rcvAccept b (s.withMem m)) :=
  .memWrite fun _ _ hw => .ite (.next hw rfl) (.next hw rfl)

theorem rcvReject_agrees (b : List Byte) :
    Agrees s.lent s.mem m (rcvReject b s) (rcvReject b (s.withMem m)) := by
  simp only [rcvReject, logCsumUnless_eq]
  exact .quiet

theorem rxRcvWait_agrees (e : RxEvent) :
    Agrees s.lent s.mem m (rxRcvWait e s) (rxRcvWait e (s.withMem m)) := by
  cases e with
  | timedOut => exact .ite .quiet .quiet
  | datagram b src =>
    simp only [rxRcvWait]
    cases classify b
    case pfx => exact rcvPrefix_agrees (s := { s with consecTo := 0 }) b
    case finack => exact rcvFinack_agrees (s := { s with consecTo := 0 }) b
    case ack => exact rcvAck_agrees (s := { s with consecTo := 0 }) b
    case data =>
      exact .ite (rcvAccept_agrees (s := { s with consecTo := 0 }) b)
        (rcvReject_agrees (s := { s with consecTo := 0 }) b)
    case syn | synack | ctrlOther => exact .quiet

/-! ### The handshake and teardown event rules -/

theorem dispatchEvent_agrees (hl : SameLent s.lent s.mem m) (e : RxEvent) :
    Agrees s.lent s.mem m (dispatchEvent e s) (dispatchEvent e (s.withMem m)) := by
  have hp' : (s.withMem m).status.phase = s.status.phase := rfl
  cases hp : s.status.phase <;> simp only [dispatchEvent, hp', hp]
  case idle => exact .quiet
  case sndWaitAck => exact rxSndWaitAck_agrees hl e
  case rcvWait => exact rxRcvWait_agrees e
  all_goals cases e
  case connWaitSynack.datagram | accWaitAck.datagram | waitFinalAck.datagram | shdWaitAck.datagram =>
    simp only [rxConnWaitSynack, rxAccWaitAck, rxWaitFinalAck, rxShdWaitAck, logCsumUnless_eq]
    exact .ite .quiet (.ite .quiet .quiet)
  case accWaitSyn.datagram | shdWaitFin.datagram =>
    simp only [rxAccWaitSyn, rxShdWaitFin, logCsumUnless_eq]
    exact .ite .quiet .quiet
  all_goals exact .quiet

theorem rxEvent_agrees (hl : SameLent s.lent s.mem m) (e : RxEvent) :
    Agrees s.lent s.mem m (rxEvent e s) (rxEvent e (s.withMem m)) := by
  cases e with
  | timedOut => exact dispatchEvent_agrees hl .timedOut
  | datagram b src => exact .ite (dispatchEvent_agrees (s := withDatagram b s) hl (.datagram b src)) .refused

/-! ### Issue -/

theorem exec_agrees (hl : SameLent s.lent s.mem m) (i : Instr) :
    Agrees s.lent s.mem m (exec i s) (exec i (s.withMem m)) := by
  cases i <;> simp only [exec] <;> refine Agrees.whenPre (s := s) (m := m) ?_
  case openConn | connect | listen | accept | recv => exact .quiet
  case send =>
    exact startRound_agrees
      (s := transmit s.conn.peerAddr (lengthPrefix s.cmd.arg1L)
        { s with
          snd.src := s.cmd.arg0L, snd.len := s.cmd.arg1L, snd.base := s.conn.seq, snd.maxOff := 0, consecTo := 0
          prog.txDelivered := 0, prog.roundStart := 0 }) hl
  case shutdown => exact .ite .quiet .quiet
  case buildHeader => exact .memWrite fun _ _ hw => .next hw rfl
  case sealSegment =>
    exact .ite .quiet (.memRead hl fun _ => .memWrite fun _ _ hw => .next hw rfl)
  case verify => exact .ite .quiet (.memRead hl fun _ => .ite .quiet .quiet)
  case classify => exact .ite .quiet (.ite .quiet (.memRead hl fun _ => .quiet))

theorem issue_agrees (hl : SameLent s.lent s.mem m) (w : Word) :
    Agrees s.lent s.mem m (issue w s) (issue w (s.withMem m)) := by
  unfold issue
  cases decode w with
  | error e => exact .quiet
  | ok i => exact exec_agrees (s := latch (opcodeOf w) s) hl i

theorem writeReg_agrees (hl : SameLent s.lent s.mem m) (r : Reg) (v : Word) :
    Agrees s.lent s.mem m (writeReg r v s) (writeReg r v (s.withMem m)) := by
  cases r
  case cmd => exact .ite (issue_agrees hl v) .quiet
  all_goals exact .quiet

/-! ### The step -/

theorem readReg_withMem (r : Reg) : readReg r (s.withMem m) = readReg r s := by
  cases r <;> rfl

/-- Every event but a host write reads and writes lent bytes only. -/
theorem applyInput_agrees (hl : SameLent s.lent s.mem m) {i : Input} (hi : ∀ a bs, i ≠ .memWrite a bs) :
    Agrees s.lent s.mem m (applyInput i s) (applyInput i (s.withMem m)) := by
  cases i with
  | regWrite o size v => exact .ite (writeReg_agrees hl _ v) .refused
  | regRead o size =>
    simp only [applyInput, readReg_withMem]
    exact .ite .quiet .refused
  | memWrite a bs => exact absurd rfl (hi a bs)
  | memRead a n => exact .ite .refused (.ite .refused .quiet)
  | lend rs => exact .quiet
  | rx e => exact rxEvent_agrees hl e
  | hwReset => exact .quiet

end

/-- The same bytes written to two memories read the same; every other byte stays as it was in both. -/
theorem get_writeBytes_two {m₀ m : Memory} {a : Nat} {v : List Byte} (h₀ : m₀.wf = true) (h : m.wf = true)
    (hv : 0 < v.length → a + v.length ≤ 4294967296) (x : Nat) :
    ((m₀.writeBytes a v).get x = m₀.get x ∧ (m.writeBytes a v).get x = m.get x) ∨
      (m₀.writeBytes a v).get x = (m.writeBytes a v).get x := by
  cases v with
  | nil => exact .inl ⟨rfl, rfl⟩
  | cons y v =>
    have ha := hv (Nat.succ_pos _)
    by_cases hx : a ≤ x ∧ x < a + (y :: v).length
    · obtain ⟨i, rfl⟩ := Nat.exists_eq_add_of_le hx.1
      have hi : i < (y :: v).length := by omega
      rw [Memory.get_writeBytes_inside m₀ a _ h₀ ha i hi, Memory.get_writeBytes_inside m a _ h ha i hi]
      exact .inr rfl
    · exact .inl ⟨Memory.get_writeBytes_outside m₀ a _ h₀ ha x (by omega),
        Memory.get_writeBytes_outside m a _ h ha x (by omega)⟩

/-- Settles O50: the step from one memory, compared with itself, names the one admitted write it makes. -/
theorem engineWritesOnlyLentBytes : Obligations.EngineWritesOnlyLentBytes := by
  intro s t i left x hm hi hw ht hx
  rw [step_of_takeNext hi] at ht
  obtain ⟨n, ⟨a, v, ha, hmem, -⟩, -⟩ :=
    applyInput_agrees (s := { s with inputs := left }) (m := s.mem) (fun _ _ => rfl) hw t ht
  rw [hmem] at hx
  obtain ⟨hlo, hhi⟩ := get_writeBytes_of_admitted ha hm x hx
  exact admitted_byte ha x hlo hhi

/-- Settles O51: a host write stores the same bytes in both runs, and so does every other event, which has read lent
bytes only. -/
theorem engineReadsOnlyLentBytes : Obligations.EngineReadsOnlyLentBytes := by
  intro s t m hs hm hl ht
  obtain ⟨hn, rfl⟩ | ⟨i, left, hi, ht⟩ := step_cases ht
  · exact ⟨m, by simp [step, stepOnce, hn], fun x => .inl ⟨rfl, rfl⟩⟩
  have hstep : step (s.withMem m) = applyInput i ({ s with inputs := left }.withMem m) := step_of_takeNext hi
  by_cases hw : ∃ a bs, i = .memWrite a bs
  · obtain ⟨a, bs, rfl⟩ := hw
    obtain ⟨ha, hsrc, hdst, rfl⟩ := hostWrite_next_iff.1 ht
    exact ⟨_, hstep.trans (hostWrite_next_iff.2 ⟨ha, hsrc, hdst, rfl⟩), get_writeBytes_two hs hm fun _ => ha⟩
  · obtain ⟨n, ⟨a, v, ha, hmem, rfl⟩, ht'⟩ :=
      applyInput_agrees (s := { s with inputs := left }) hl (fun a bs h => hw ⟨a, bs, h⟩) t ht
    exact ⟨_, hstep.trans ht', hmem ▸ get_writeBytes_two hs hm (admitted_range ha)⟩

end Sys2Proof.Machine
end

section
/-! PROOFS. The layout of a sealed segment and of the length prefix (R65, R84, R85, R89, R140, R142, R145, R146). -/

namespace Sys2Proof.Machine

/-! ### The header (R85, R140) -/

/-- A header is its five fields and 16 zero bytes: the reserved ones and the checksum field. -/
theorem hdr_eq (seq ack : Word) (ctrl win : Half) (dlen : Word) :
    hdr seq ack ctrl win dlen = be32 seq ++ be32 ack ++ be16 ctrl ++ be16 win ++ be32 dlen ++ zeros 16 := by
  simp [hdr, be32, zeros, List.replicate_succ]

/-- The checksum input of a segment whose checksum field is zero is the segment. -/
theorem csumInput_hdr (seq ack : Word) (ctrl win : Half) (dlen : Word) (p : List Byte) :
    csumInput (hdr seq ack ctrl win dlen ++ p) = hdr seq ack ctrl win dlen ++ p := by
  simp [csumInput, hdr, be32, be16, zeros, List.replicate_succ]

/-- The bytes of a header past data_len are zero (R89). -/
theorem byteAt_hdr_reserved (seq ack : Word) (ctrl win : Half) (dlen : Word) (p : List Byte) {i : Nat} (h : 16 ≤ i)
    (h' : i < 28) : byteAt (hdr seq ack ctrl win dlen ++ p) i = 0 := by
  have hf : (be32 seq ++ be32 ack ++ be16 ctrl ++ be16 win ++ be32 dlen).length = 16 := rfl
  rw [hdr_eq, byteAt, List.getD_eq_getElem?_getD, List.append_assoc, List.getElem?_append_right (by omega), hf,
    List.getElem?_append_left (by rw [zeros_length]; omega), zeros, List.getElem?_replicate_of_lt (by omega)]
  rfl

/-! ### The length prefix (R65, R145) -/

/-- A word is its four bytes, most significant first. -/
theorem toNat_eq_bytes (v : Word) :
    v.toNat = 16777216 * (v.extractLsb' 24 8).toNat + 65536 * (v.extractLsb' 16 8).toNat +
      256 * (v.extractLsb' 8 8).toNat + (v.extractLsb' 0 8).toNat := by
  simp only [BitVec.extractLsb'_toNat, Nat.shiftRight_eq_div_pow]
  omega

/-- Settles O3: the fields of the header come through the seal, and the seal's checksum is that of the whole segment,
whose checksum field is still zero. -/
theorem headerAndPrefixReadBack : Obligations.HeaderAndPrefixReadBack := by
  refine ⟨fun ck seq ack dlen ctrl win p => ?_, fun l => ⟨rdBe32_be32 l, rfl, rfl, toNat_eq_bytes l⟩⟩
  have hlen : (hdr seq ack ctrl win dlen ++ p).length = 32 + p.length := by simp
  have h32 : 32 ≤ (hdr seq ack ctrl win dlen ++ p).length := by omega
  refine ⟨(sealWith_length ck _ h32).trans hlen, ?_, ?_, ?_, ?_, ?_, ?_, fun i hi hi' => ?_, ?_⟩
  · rw [seqOf_sealWith ck _ h32, seqOf_hdr]
  · rw [ackOf_sealWith ck _ h32, ackOf_hdr]
  · rw [ctrlOf_sealWith ck _ h32, ctrlOf_hdr]
  · rw [winOf_sealWith ck _ h32, winOf_hdr]
  · rw [dlenOf_sealWith ck _ h32, dlenOf_hdr]
  · rw [payloadOf_sealWith ck _ h32, payloadOf_hdr]
  · rw [byteAt_sealWith_low ck _ h32 i hi', byteAt_hdr_reserved seq ack ctrl win dlen p hi hi']
  · rw [csumOf_sealWith ck _ h32, csumInput_hdr, hdr_eq]

end Sys2Proof.Machine
end

section
/-! PROOFS. What the issue of a command leaves unchanged, and that it stops at an access the host has not lent (R62, R69,
R71, R123, R133, I10). -/

namespace Sys2Proof.Machine

/-! ### What each command leaves unchanged (R69, R71, R123) -/

/-- A command in the wrong CONN_STATE fails with PRECONDITION (R122, R123). -/
theorem exec_of_not_pre {i : Instr} {s : State} (h : pre i s.status.connState = false) :
    exec i s = .next (fail .precondition 0 s) := by
  cases i <;> simp only [exec] <;> exact whenPre_neg h _

/-- OPEN does not reset cmd_op (R320). -/
@[simp] theorem openReset_cmd_op (s : State) : (openReset s).cmd.op = s.cmd.op := rfl

/-- The reply sequence writes SEQ_NUMBER and ACK_NUMBER of the connection record (R175). -/
@[simp] theorem replyClose_conn (p : Word) (s : State) :
    (replyClose p s).conn = { s.conn with ack := p + 1, seq := s.conn.seq + 1 } := rfl

/-- Settles O30: a command in the wrong CONN_STATE writes RESULT and the completion bits only, and every other end of a
command is a state that names the fields it writes. -/
theorem commandFrames : Obligations.CommandFrames := by
  intro s t i h
  by_cases hp : pre i s.status.connState = true
  case neg =>
    rw [exec_of_not_pre (Bool.eq_false_iff.2 hp)] at h
    cases h
    simp
  cases i <;> simp only [exec, execOpen, execConnect, execListen, execAccept, execSend, execRecv, execShutdown,
    execBuildHeader, execSeal, execVerify, execClassify, whenPre_pos hp] at h
  case openConn | connect | listen | accept | recv =>
    cases h
    simp
  case send => obtain ⟨-, rfl⟩ | ⟨-, u, rfl, rfl, -⟩ := startRound_cases h <;> simp
  case shutdown =>
    split at h <;>
    · cases h
      simp
  case buildHeader =>
    obtain ⟨-, h⟩ := memWrite_next h
    cases h
    simp
  case sealSegment =>
    split at h
    · cases h
      simp
    · obtain ⟨-, h⟩ := memRead_next h
      obtain ⟨-, h⟩ := memWrite_next h
      cases h
      simp
  case verify =>
    split at h
    · cases h
      simp
    · obtain ⟨-, h⟩ := memRead_next h
      split at h <;>
      · cases h
        simp
  case classify =>
    split at h
    · cases h
      simp
    split at h
    · cases h
      simp
    · obtain ⟨-, h⟩ := memRead_next h
      cases h
      simp

/-! ### Accesses the host has not lent (R62, R133, I10) -/

/-- A run of chunks stops at a chunk whose bytes the host has not lent. -/
theorem transmitChunks_fault {n i j : Nat} {s : State} (hj : i ≤ j) (hj' : j < i + n)
    (h : ¬ admitted s.lent (chunkAddr s j) (chunkLen s j) .read = true) :
    ∃ a k, transmitChunks n i s = .fault (.memNotAdmitted .read a k) := by
  induction n generalizing i s with
  | zero => omega
  | succ n ih =>
    rw [transmitChunks, memRead]
    by_cases ha : admitted s.lent (chunkAddr s i) (chunkLen s i) .read = true
    · have hne : j ≠ i := fun he => h (he ▸ ha)
      rw [if_pos ha]
      exact ih (s := transmit _ _ s) (by omega) (by omega) h
    · rw [if_neg ha]
      exact ⟨_, _, rfl⟩

/-- The chunks of a round cover it: when each is lent, so is the round (R204, R205). -/
theorem lends_round {s : State} (hmss : 1 ≤ s.cfg.mss.toNat) (hr : 1 ≤ s.snd.roundLen.toNat)
    (h : ∀ j, j < ceilDiv s.snd.roundLen.toNat s.cfg.mss.toNat →
      admitted s.lent (chunkAddr s j) (chunkLen s j) .read = true) :
    Lends s .read (chunkAddr s 0) s.snd.roundLen.toNat := by
  have hbyte : ∀ x, x < s.snd.roundLen.toNat → chunkAddr s 0 + x < 4294967296 ∧
      ∃ r ∈ s.lent, r.kind = .read ∧ r.base ≤ chunkAddr s 0 + x ∧ chunkAddr s 0 + x < r.base + r.len := by
    intro x hx
    obtain ⟨hj, hlo, hhi⟩ := mem_chunk hmss hx
    have hbase : chunkAddr s (x / s.cfg.mss.toNat) = chunkAddr s 0 + x / s.cfg.mss.toNat * s.cfg.mss.toNat := by
      simp [chunkAddr]
    exact admitted_byte (h _ hj) _ (by omega) (by rw [hbase, chunkLen]; omega)
  refine ⟨?_, fun x hx hx' => ?_⟩
  · have := (hbyte (s.snd.roundLen.toNat - 1) (by omega)).1
    omega
  · have := (hbyte (x - chunkAddr s 0) (by omega)).2
    rwa [Nat.add_sub_cancel' hx] at this

theorem beginRound_roundLen_toNat (s : State) {d r : Nat} (hr : r < 4294967296) :
    (beginRound d r s).snd.roundLen.toNat = r := by
  rw [beginRound, BitVec.toNat_ofNat]
  exact Nat.mod_eq_of_lt hr

theorem beginRound_roundN_toNat (s : State) {d r : Nat} (hmss : 1 ≤ s.cfg.mss.toNat) (hr : r < 4294967296) :
    (beginRound d r s).snd.roundN.toNat = ceilDiv r s.cfg.mss.toNat := by
  rw [beginRound, BitVec.toNat_ofNat]
  exact Nat.mod_eq_of_lt (Nat.lt_of_le_of_lt (ceilDiv_le hmss) hr)

/-- When each chunk of a new round is lent, so are the bytes it is to send. -/
theorem lends_beginRound {s : State} {d r : Nat} (hmss : 1 ≤ s.cfg.mss.toNat) (h1 : 1 ≤ r) (h2 : r ≤ 65535)
    (h : ∀ j, j < (beginRound d r s).snd.roundN.toNat →
      admitted s.lent (chunkAddr (beginRound d r s) j) (chunkLen (beginRound d r s) j) .read = true) :
    Lends s .read (s.snd.src.toNat + (off s s.conn.seq).toNat) r := by
  have hlen := beginRound_roundLen_toNat s (d := d) (r := r) (by omega)
  have hn := beginRound_roundN_toNat s (d := d) (r := r) hmss (by omega)
  have hl := lends_round (s := beginRound d r s) hmss (by omega) fun j hj => h j (by rw [hn]; rwa [hlen] at hj)
  rw [hlen, chunkAddr, Nat.zero_mul] at hl
  exact hl

/-- A round whose bytes are not all lent does not start: the step stops at one of its chunks. -/
theorem startRound_fault {s : State} (hc : s.cfg.wf = true) (hw : 1 ≤ s.conn.cwnd.toNat)
    (hrem : s.snd.len - off s s.conn.seq ≠ 0)
    (h : ¬ Lends s .read (s.snd.src.toNat + (off s s.conn.seq).toNat)
      (roundSize s (s.snd.len - off s s.conn.seq).toNat)) :
    ∃ a n, startRound s = .fault (.memNotAdmitted .read a n) := by
  obtain ⟨h1, h2, -⟩ := roundSize_bounds s hw (Nat.pos_of_ne_zero fun h0 => hrem (BitVec.eq_of_toNat_eq h0))
  rw [startRound, if_neg hrem]
  by_contra hno
  refine h (lends_beginRound (s := { s with prog.txDelivered := off s s.conn.seq }) (d := (off s s.conn.seq).toNat)
    (Params.wf_bounds hc).1 h1 h2 ?_)
  intro j hj
  by_contra ha
  exact hno (transmitChunks_fault (Nat.zero_le j) (by rwa [Nat.zero_add]) ha)

/-- SEAL stores 4 checksum bytes. -/
theorem sealWith_csum_length (ck : List Byte → Word) (b : List Byte) (h : 32 ≤ b.length) :
    (((sealWith ck b).drop 28).take 4).length = 4 := by
  rw [List.length_take, List.length_drop, sealWith_length ck b h]
  omega

/-- Settles O31: each codec command stops at its access that is not lent; a SEND stops at the first chunk of its round
that is not lent, and there is one, since the chunks cover the round. -/
theorem unlentAccessHasNoTransition : Obligations.UnlentAccessHasNoTransition := by
  intro s
  refine ⟨fun h => ?_, fun hn h => ⟨?_, ?_⟩, fun hn hr hw => ?_, fun hn h => ?_, fun hc he hw hn h => ?_⟩
  · rw [exec, execBuildHeader, whenPre_pos rfl,
      memWrite_of_not_lends _ _ _ _ (by simp) (by rwa [buildHeader_length]), buildHeader_length]
  · rw [exec, execSeal, whenPre_pos rfl, if_neg (by omega), memRead_of_not_lends _ _ _ _ (by omega) h]
  · rw [exec, execVerify, whenPre_pos rfl, if_neg (by omega), memRead_of_not_lends _ _ _ _ (by omega) h]
  · have h4 := sealWith_csum_length s.ck (s.mem.readBytes s.cmd.arg0L.toNat s.cmd.arg1L.toNat)
      (by rwa [Memory.length_readBytes])
    rw [exec, execSeal, whenPre_pos rfl, if_neg (by omega), memRead_of_lends _ _ _ _ hr,
      memWrite_of_not_lends _ _ _ _ (by omega) (by rwa [h4]), h4]
  · rw [exec, execClassify, whenPre_pos rfl, hn, if_neg (by decide), if_neg (by decide),
      memRead_of_not_lends _ _ _ _ (by decide) h]
  · rw [exec, execSend, whenPre_pos (by rw [he]; rfl)]
    refine startRound_fault hc hw ?_ ?_
    · show s.cmd.arg1L - (s.conn.seq - s.conn.seq) ≠ 0
      simpa using hn
    · show ¬ Lends s .read (s.cmd.arg0L.toNat + (s.conn.seq - s.conn.seq).toNat)
        (roundSize s (s.cmd.arg1L - (s.conn.seq - s.conn.seq)).toNat)
      simpa [roundSize, flowWindow] using h

end Sys2Proof.Machine
end

section
/-! PROOFS. The opcode map (R80, R81, R100), and the classes of a datagram (R94, R95, R97). -/

namespace Sys2Proof

/-! ### The opcode map (R80, R81) -/

/-- The opcode column of R81 is the inverse of the decoder's map. -/
theorem decodeOp_eq_ok_iff {op : BitVec 8} {i : Instr} : decodeOp op = .ok i ↔ op = i.opcode := by
  constructor
  · intro h
    unfold decodeOp at h
    split at h <;> cases h <;> exact BitVec.eq_of_toNat_eq ‹_›
  · rintro rfl
    cases i <;> rfl

/-- The reserved opcodes are the gaps of the map: below 0x01, between SHUTDOWN and BUILD_HEADER, and past CLASSIFY. -/
theorem decodeOp_error_iff {op : BitVec 8} : (∃ e, decodeOp op = .error e) ↔
    (op.toNat = 0 ∨ (0x08 ≤ op.toNat ∧ op.toNat ≤ 0x0F) ∨ 0x14 ≤ op.toNat) := by
  unfold decodeOp
  split
  case h_12 =>
    simp only [imp_false] at *
    exact iff_of_true ⟨_, rfl⟩ (by omega)
  all_goals exact iff_of_false nofun (by omega)

theorem opcodeOf_toNat (w : Word) : (opcodeOf w).toNat = w.toNat % 256 := by
  simp [opcodeOf, BitVec.extractLsb'_toNat]

theorem encode_toNat (i : Instr) : (encode i).toNat = i.opcode.toNat :=
  BitVec.toNat_setWidth_of_le (by decide)

/-- The encoder puts the opcode where the decoder reads it (R80, R100). -/
theorem opcodeOf_encode (i : Instr) : opcodeOf (encode i) = i.opcode := by
  apply BitVec.eq_of_toNat_eq
  rw [opcodeOf_toNat, encode_toNat]
  exact Nat.mod_eq_of_lt i.opcode.isLt

/-- Settles O2: `decode` is the opcode map applied to CMD[7:0], where `encode` puts the opcode. -/
theorem decodeReadsOnlyTheOpcodeByte : Obligations.DecodeReadsOnlyTheOpcodeByte := by
  refine ⟨fun w i => decodeOp_eq_ok_iff, fun w => ?_, fun i => ⟨?_, ?_⟩⟩
  · rw [← opcodeOf_toNat w]
    exact decodeOp_error_iff
  · exact decodeOp_eq_ok_iff.2 (opcodeOf_encode i)
  · rw [encode_toNat]
    exact i.opcode.isLt

/-- Settles O1: each word is evaluated, ignored bits and reserved opcodes among them. -/
theorem commandWordsDecode : Obligations.CommandWordsDecode := by
  unfold Obligations.CommandWordsDecode
  decide

namespace Machine

/-! ### The classes of a 32-byte datagram (R95) -/

/-- FIN|ACK is the bits 11 and 14 (R86, R87). -/
theorem getLsbD_ctlFinAck : ∀ i < 16, ctlFinAck.getLsbD i = (decide (i = 11) || decide (i = 14)) := by decide

/-- The mask test of R95 reads bits 11 and 14 only. -/
theorem and_ctlFinAck_iff (c : Half) :
    c &&& ctlFinAck = ctlFinAck ↔ c.getLsbD 11 = true ∧ c.getLsbD 14 = true := by
  constructor
  · intro h
    have hbit (i : Nat) (hi : ctlFinAck.getLsbD i = true) : c.getLsbD i = true := by
      rw [← h, BitVec.getLsbD_and, Bool.and_eq_true] at hi
      exact hi.1
    exact ⟨hbit 11 rfl, hbit 14 rfl⟩
  · rintro ⟨hack, hfin⟩
    apply BitVec.eq_of_getLsbD_eq
    intro i hi
    rw [BitVec.getLsbD_and, getLsbD_ctlFinAck i hi]
    by_cases h11 : i = 11
    · simp [h11, hack]
    · by_cases h14 : i = 14
      · simp [h14, hfin]
      · simp [h11, h14]

theorem classifyCtrl_finack {c : Half} (h11 : c.getLsbD 11 = true) (h14 : c.getLsbD 14 = true) :
    classifyCtrl c = .finack := if_pos ((and_ctlFinAck_iff c).2 ⟨h11, h14⟩)

theorem classifyCtrl_other {c : Half} (hfinack : ¬ (c.getLsbD 11 = true ∧ c.getLsbD 14 = true))
    (hack : c ≠ 0x0800#16) (hsyn : c ≠ 0x2000#16) (hsynack : c ≠ 0x2800#16) : classifyCtrl c = .ctrlOther := by
  rw [classifyCtrl, if_neg (mt (and_ctlFinAck_iff c).1 hfinack)]
  exact (if_neg hack).trans ((if_neg hsyn).trans (if_neg hsynack))

/-- Settles O5: the length decides PREFIX and DATA, and 32 bytes are classed by the control field. -/
theorem classifyByLengthThenControl : Obligations.ClassifyByLengthThenControl := by
  refine ⟨fun b => (classify_pfx_iff b).2, fun b h4 h32 => (classify_data_iff b).2 ⟨h4, h32⟩, fun b h => ?_,
    rfl, rfl, rfl, rfl, rfl, rfl, rfl⟩
  rw [classify_of_length_32 h]
  refine ⟨classifyCtrl_finack, fun hc => ?_, fun hc => ?_, fun hc => ?_, classifyCtrl_other⟩ <;>
  · rw [hc]
    decide

end Machine
end Sys2Proof
end

section
/-! PROOFS. What a step hands to the Transport: length prefixes and sealed segments, all for PEER_ADDR (R98, R152, R270,
R271, R275). -/

namespace Sys2Proof.Machine

/-! ### The datagrams the engine builds (R98, R152) -/

theorem goodDatagram_lengthPrefix (p : Params) (l : Word) : goodDatagram p (lengthPrefix l) = true := rfl

/-- A sealed segment with at most MSS bytes of payload is one the engine may transmit. -/
theorem goodDatagram_sealWith {p : Params} {b : List Byte} (h : 32 ≤ b.length) (h' : b.length ≤ 32 + p.mss.toNat) :
    goodDatagram p (sealWith p.checksum.eval b) = true := by
  simp [goodDatagram, h, h']

theorem goodDatagram_buildHeader (c : Half) (s : State) : goodDatagram s.cfg (buildHeader c s) = true :=
  goodDatagram_sealWith (by simp) (by simp)

/-- A chunk holds at most MSS bytes of payload (R204). -/
theorem goodDatagram_chunkTx (s : State) (i : Nat) : goodDatagram s.cfg (chunkTx s i).bytes = true := by
  have hlen : chunkLen s i ≤ s.cfg.mss.toNat := Nat.min_le_left ..
  exact goodDatagram_sealWith (by simp) (by simpa using hlen)

/-! ### Handing over (R270, R271) -/

/-- What `t` has handed over is what `s` had, and then datagrams of the two kinds, each for PEER_ADDR of `t`. -/
def Sends (s t : State) : Prop :=
  ∃ sent : List Tx, t.tx = s.tx ++ sent ∧
    ∀ d ∈ sent, d.dest = t.conn.peerAddr ∧ goodDatagram s.cfg d.bytes = true

/-- A change that hands nothing over. -/
theorem Sends.quiet {s t : State} (h : t.tx = s.tx) : Sends s t := ⟨[], by simp [h], nofun⟩

theorem Sends.transmit {s : State} {b : List Byte} (h : goodDatagram s.cfg b = true) :
    Sends s (transmit s.conn.peerAddr b s) := ⟨[⟨s.conn.peerAddr, b⟩], rfl, by simpa using h⟩

theorem Sends.transmitCtl (c : Half) (s : State) : Sends s (transmitCtl c s) :=
  .transmit (goodDatagram_buildHeader c s)

/-- Two parts of a step, with the same parameters, toward the same peer. -/
theorem Sends.trans {s u t : State} (h : Sends s u) (h' : Sends u t) (hc : u.cfg = s.cfg)
    (hp : u.conn.peerAddr = t.conn.peerAddr) : Sends s t := by
  obtain ⟨l, hl, hd⟩ := h
  obtain ⟨l', hl', hd'⟩ := h'
  refine ⟨l ++ l', by rw [hl', hl, List.append_assoc], fun d hmem => ?_⟩
  obtain hmem | hmem := List.mem_append.1 hmem
  · exact hp ▸ hd d hmem
  · exact hc ▸ hd' d hmem

/-- A rule that hands nothing over before `u`. -/
theorem Sends.after_quiet {s u t : State} (h : Sends u t) (htx : u.tx = s.tx) (hc : u.cfg = s.cfg) : Sends s t := by
  rw [Sends, ← htx, ← hc]
  exact h

/-- The end of a command hands nothing over. -/
theorem Sends.ends {s u t : State} (h : Sends s u) (he : Ends u t) : Sends s t := by
  cases he <;> exact h

theorem Ends.sends {s t : State} (h : Ends s t) : Sends s t := (Sends.quiet rfl).ends h

/-! ### The send engine -/

/-- A round start hands over nothing but the chunks of its round (R202, R205). -/
theorem startRound_sends {s t : State} (h : startRound s = .next t) : Sends s t := by
  obtain ⟨-, rfl⟩ | ⟨-, u, rfl, rfl, -⟩ := startRound_cases h
  · exact .quiet rfl
  · refine ⟨_, rfl, fun d hd => ?_⟩
    obtain ⟨i, -, rfl⟩ := List.mem_map.1 hd
    exact ⟨rfl, goodDatagram_chunkTx _ i⟩

theorem startRound_peerAddr {s t : State} (h : startRound s = .next t) : t.conn.peerAddr = s.conn.peerAddr := by
  obtain ⟨-, rfl⟩ | ⟨-, u, rfl, rfl, -⟩ := startRound_cases h <;> rfl

theorem advance_sends {s t : State} (h : advance s = .next t) : Sends s t := by
  unfold advance at h
  dsimp only at h
  split at h
  · exact (startRound_sends h).after_quiet (by simp) (by simp)
  · cases h
    exact .quiet rfl

/-- Every event of SND_WAIT_ACK hands over the chunks of a round at most (R208). -/
theorem rxSndWaitAck_sends {e : RxEvent} {s t : State} (h : rxSndWaitAck e s = .next t) : Sends s t := by
  cases e with
  | timedOut =>
    simp only [rxSndWaitAck, sndTimedOut] at h
    split at h
    · cases h
      exact .quiet rfl
    · exact (startRound_sends h :)
  | datagram b src =>
    simp only [rxSndWaitAck, sndAck] at h
    split at h
    · cases h
      exact .quiet rfl
    split at h
    · split at h <;> exact (advance_sends h).after_quiet (by simp) (by simp)
    · exact (advance_sends h :)

/-! ### The receive engine and the other wait phases -/

/-- The reply sequence hands over an ACK and a FIN|ACK (R175). -/
theorem replyClose_sends (p : Word) (s : State) : Sends s (replyClose p s) := by
  have hack := Sends.transmitCtl ctlAck { s with status.connState := .closingByPeer, conn.ack := p + 1 }
  refine hack.trans (t := replyClose p s) ?_ rfl rfl
  exact Sends.transmitCtl ctlFinAck
    { transmitCtl ctlAck { s with status.connState := .closingByPeer, conn.ack := p + 1 } with
      conn.seq := s.conn.seq + 1 }

/-- An accepted segment is acknowledged (R248). -/
theorem accepted_sends (b : List Byte) (s : State) : Sends s (accepted b s) :=
  (Sends.transmitCtl ctlAck _).after_quiet rfl rfl

theorem rxRcvWait_sends {e : RxEvent} {s t : State} (h : rxRcvWait e s = .next t) : Sends s t := by
  cases e with
  | timedOut =>
    obtain he | ⟨-, rfl⟩ := rcvTimedOut_cases h
    · exact (he.sends :)
    · exact .quiet rfl
  | datagram b src =>
    simp only [rxRcvWait] at h
    split at h
    case h_1 =>
      obtain rfl | he | ⟨rfl, -⟩ := rcvPrefix_cases h
      · exact .quiet rfl
      · exact (he.sends :)
      · exact .quiet rfl
    case h_2 =>
      obtain ⟨l, rfl | ⟨-, he⟩⟩ := rcvFinack_cases h
      · exact (replyClose_sends _ _).after_quiet rfl rfl
      · exact (he.sends :)
    case h_3 =>
      obtain ⟨l, p, rfl⟩ := rcvAck_eq h
      exact .quiet rfl
    case h_7 =>
      split at h
      · obtain ⟨-, he | ⟨rfl, -⟩⟩ := rcvAccept_cases h
        · exact ((accepted_sends b _).ends he :)
        · exact (accepted_sends b _).after_quiet rfl rfl
      · obtain ⟨l, rfl⟩ := rcvReject_eq h
        exact (Sends.transmitCtl ctlAck { s with consecTo := 0 } :)
    all_goals
      cases h
      exact .quiet rfl

/-- The rule of every phase hands over datagrams of the two kinds, toward the peer it leaves in PEER_ADDR: the answer to
a SYN goes to the SYN's source, which has become the peer (R165). -/
theorem dispatchEvent_sends {e : RxEvent} {s t : State} (h : dispatchEvent e s = .next t) : Sends s t := by
  cases hp : s.status.phase <;> simp only [dispatchEvent, hp] at h
  case idle =>
    cases h
    exact .quiet rfl
  case connWaitSynack =>
    obtain he | ⟨l, w, a, rfl⟩ := rxConnWaitSynack_cases h
    · exact he.sends
    · exact (Sends.transmitCtl ctlAck
        { s with status.csumLog := l, conn.peerWindow := w, conn.ack := a, conn.seq := s.conn.seq + 1 } :)
  case accWaitSyn =>
    obtain rfl | he | ⟨l, p, w, a, rfl⟩ := rxAccWaitSyn_cases h
    · exact .quiet rfl
    · exact he.sends
    · exact (Sends.transmitCtl ctlSynAck
        { s with status.csumLog := l, conn.peerAddr := p, conn.peerWindow := w, conn.ack := a } :)
  case accWaitAck =>
    obtain he | ⟨l, w, rfl⟩ := rxAccWaitAck_cases h
    · exact he.sends
    · exact .quiet rfl
  case sndWaitAck => exact rxSndWaitAck_sends h
  case rcvWait => exact rxRcvWait_sends h
  case waitFinalAck =>
    obtain he | ⟨l, rfl⟩ := rxWaitFinalAck_cases h
    · exact he.sends
    · exact .quiet rfl
  case shdWaitAck =>
    obtain he | ⟨l, rfl⟩ := rxShdWaitAck_cases h
    · exact he.sends
    · exact .quiet rfl
  case shdWaitFin =>
    obtain he | ⟨l, a, rfl⟩ := rxShdWaitFin_cases h
    · exact he.sends
    · exact (Sends.transmitCtl ctlAck { s with status.csumLog := l, conn.ack := a } :)

/-! ### Commands -/

/-- The CONN_STATE check hands nothing over (R123). -/
theorem whenPre_sends {i : Instr} {s t : State} {body : Out} (h : whenPre i s body = .next t)
    (hb : body = .next t → Sends s t) : Sends s t := by
  obtain he | ⟨-, h⟩ := whenPre_ends h
  · exact he.sends
  · exact hb h

/-- SEND hands over the length prefix and the first round (R201, R202). -/
theorem execSend_sends {s t : State} (h : execSend s = .next t) : Sends s t := by
  refine whenPre_sends h fun h => ?_
  have hlength := Sends.transmit (goodDatagram_lengthPrefix s.cfg s.cmd.arg1L)
  exact hlength.trans ((startRound_sends h).after_quiet rfl rfl) rfl (startRound_peerAddr h).symm

/-- The issue part of every command hands over datagrams of the two kinds; CONNECT's go to the peer it names (R161). -/
theorem exec_sends {i : Instr} {s t : State} (h : exec i s = .next t) : Sends s t := by
  cases i <;> simp only [exec] at h
  case send => exact execSend_sends h
  case connect =>
    refine whenPre_sends h fun h => ?_
    cases h
    exact (Sends.transmitCtl ctlSyn
      { s with status.role := .client, conn.peerAddr := s.cmd.arg1L, conn.seq := s.cmd.arg0L, conn.ack := 0 } :)
  case shutdown =>
    obtain he | ⟨-, rfl | rfl⟩ := execShutdown_cases h
    · exact he.sends
    · exact (replyClose_sends _ _).after_quiet rfl rfl
    · exact (Sends.transmitCtl ctlFinAck s :)
  case buildHeader => exact (execBuildHeader_ends h).sends
  case sealSegment => exact (execSeal_ends h).sends
  case verify => exact (execVerify_ends h).sends
  case classify => exact (execClassify_ends h).sends
  case openConn | listen | accept | recv =>
    refine whenPre_sends h fun h => ?_
    cases h
    exact .quiet rfl

/-! ### The step -/

/-- Only an issue and an RX event hand anything over. -/
theorem applyInput_sends {i : Input} {s t : State} (h : applyInput i s = .next t) : Sends s t := by
  obtain ⟨w, -, -, h⟩ | ⟨e, -, h⟩ | ⟨-, rfl⟩ | ⟨u, -, rfl⟩ := applyInput_cases h
  · obtain rfl | ⟨i, -, -, h⟩ := issue_cases h
    · exact .quiet rfl
    · exact (exec_sends h :)
  · exact (dispatchEvent_sends (rxEvent_cases h)).after_quiet (by simp) (by simp)
  · exact .quiet rfl
  · exact .quiet rfl

/-- Settles O49: from every state, those with EngineInv among them, the event a step takes hands over datagrams of the
two kinds toward the peer, and a step with no event hands nothing over. -/
theorem everyTransmittedDatagramIsSealedAndForThePeer :
    Obligations.EveryTransmittedDatagramIsSealedAndForThePeer := by
  intro s t _ ht
  obtain ⟨-, rfl⟩ | ⟨i, left, -, ht⟩ := step_cases ht
  · exact Sends.quiet rfl
  · exact (applyInput_sends ht :)

end Sys2Proof.Machine
end

section
/-! PROOFS. The command port: the order of events, register writes, issue, and the commands that fail or complete in their
issue step (R120 to R131, R320). -/

namespace Sys2Proof.Machine

/-! ### The order of events (R131, R132, R279, R297) -/

/-- With no event to take, a step changes nothing (log entry 4). -/
theorem step_of_takeNext_none {s : State} (h : takeNext s.status.phase s.inputs = none) : step s = .next s := by
  rw [step, stepOnce, h]

/-- Settles O8: the two laws of `takeNext` in IDLE, each an induction over the held events, say which event the step
takes, if any. -/
theorem idleTakesNoRxEvent : Obligations.IdleTakesNoRxEvent := by
  refine ⟨fun s hp hheld => ?_, fun s held rest i hp hin hheld hi => ?_⟩
  · apply step_of_takeNext_none
    rw [hp]
    exact takeNext_idle_none s.inputs hheld
  · apply step_of_takeNext
    rw [hp, hin]
    exact takeNext_idle_held held rest i hheld hi

/-- In a wait phase the step is the effect of the first event. -/
theorem step_of_wait {s : State} {i : Input} {rest : List Input} (hp : s.status.phase ≠ .idle)
    (hin : s.inputs = i :: rest) : step s = applyInput i { s with inputs := rest } := by
  apply step_of_takeNext
  rw [hin, takeNext_wait _ hp]

/-- Settles O7: the first event is the one taken, and the effect of an RX event is its event rule. -/
theorem stepTakesOneEventInAWaitPhase : Obligations.StepTakesOneEventInAWaitPhase := by
  intro s i rest hp hin
  refine ⟨step_of_wait hp hin, ?_⟩
  rintro e rfl
  exact step_of_wait hp hin

/-! ### Register writes (R127, R128) -/

/-- The step of an admitted register write is the write of the register at its offset (R34, R61). -/
theorem step_regWrite {s : State} {left : List Input} {o : Nat} {v : Word}
    (hi : takeNext s.status.phase s.inputs = some (.regWrite o 4 v, left)) (ho : regAccessOk o 4 = true) :
    step s = writeReg (Reg.ofOffset o) v { s with inputs := left } := by
  rw [step_of_takeNext hi, applyInput, if_pos ho]

/-- `writeStatus` clears each W1C bit that is written as 1 (R127). -/
theorem writeStatus_eq (v : Word) (s : State) : writeStatus v s =
    { s with
      status :=
        { s.status with
          done := if v.getLsbD 1 then false else s.status.done
          err := if v.getLsbD 2 then false else s.status.err
          cmdOverrun := if v.getLsbD 3 then false else s.status.cmdOverrun
          csumLog := if v.getLsbD 13 then false else s.status.csumLog
          protoLog := if v.getLsbD 14 then false else s.status.protoLog } } := by
  simp only [writeStatus, Bool.if_false_left, Bool.decide_eq_true, Bool.and_comm]

/-- Every register but CMD, ARG0, ARG1, STATUS and CTRL, and every reserved offset, ignores a write (R128). -/
theorem writeReg_ofOffset_ignored {o : Nat} (hcmd : o ≠ 0x20) (harg0 : o ≠ 0x24) (harg1 : o ≠ 0x28)
    (hstatus : o ≠ 0x30) (hctrl : o ≠ 0x34) (v : Word) (s : State) : writeReg (Reg.ofOffset o) v s = .next s := by
  unfold Reg.ofOffset
  split
  case h_8 => exact absurd rfl hcmd
  case h_9 => exact absurd rfl harg0
  case h_10 => exact absurd rfl harg1
  case h_12 => exact absurd rfl hstatus
  case h_13 => exact absurd rfl hctrl
  all_goals rfl

/-- Settles O14: the step writes the register at the offset, in every phase. -/
theorem registerWritesStoreClearOrAreIgnored : Obligations.RegisterWritesStoreClearOrAreIgnored := by
  refine ⟨fun s left v hi => ?_, fun s left o v hi => ⟨?_, ?_, ?_, fun hcmd harg0 harg1 hstatus hctrl hal hle => ?_⟩⟩
  · rw [step_regWrite hi rfl, Reg.ofOffset, writeReg, writeStatus_eq]
  · rintro rfl
    exact step_regWrite hi rfl
  · rintro rfl
    exact step_regWrite hi rfl
  · rintro rfl
    exact step_regWrite hi rfl
  · have ho : regAccessOk o 4 = true := by simp [regAccessOk, hal, hle]
    rw [step_regWrite hi ho, writeReg_ofOffset_ignored hcmd harg0 harg1 hstatus hctrl]

/-! ### Issue (R120, R121, R125) -/

theorem issue_of_decode_ok {w : Word} {i : Instr} (h : decode w = .ok i) (s : State) :
    issue w s = exec i (latch (opcodeOf w) s) := by
  rw [issue, h]

theorem issue_of_decode_error {w : Word} {e : DecodeError} (h : decode w = .error e) (s : State) :
    issue w s = .next (fail .illegalCommand 0 (latch (opcodeOf w) s)) := by
  rw [issue, h]

/-- A CMD write that IDLE takes next is issued (R120). -/
theorem step_cmdWrite_of_idle {s : State} {left : List Input} {w : Word} (hp : s.status.phase = .idle)
    (hi : takeNext .idle s.inputs = some (.regWrite 0x20 4 w, left)) :
    step s = issue w { s with inputs := left } := by
  rw [← hp] at hi
  rw [step_regWrite hi rfl]
  exact if_pos hp

/-- A CMD write in a wait phase sets CMD_OVERRUN only (R121). -/
theorem step_cmdWrite_of_wait {s : State} {rest : List Input} {w : Word} (hp : s.status.phase ≠ .idle)
    (hin : s.inputs = .regWrite 0x20 4 w :: rest) :
    step s = .next { s with inputs := rest, status := { s.status with cmdOverrun := true } } := by
  rw [step_of_wait hp hin]
  exact if_neg hp

/-- A table word names the command its CMD write decodes to. -/
theorem decode_of_decodeTableWord {nbits w : Nat} {i : Instr} (h : decodeTableWord nbits w = some i) :
    decode (BitVec.ofNat 32 (w % 2 ^ nbits)) = .ok i := by
  unfold decodeTableWord at h
  split at h
  · cases h
    assumption
  · cases h

/-- The placed command word is next, and IDLE issues it (log entry 12). -/
theorem step_withFetchWord (s : State) (nbits w : Nat) :
    step (s.withFetchWord nbits w) =
      issue (BitVec.ofNat 32 (w % 2 ^ nbits)) { s with status.phase := .idle } :=
  step_cmdWrite_of_idle (s := s.withFetchWord nbits w) rfl (takeNext_other _ _ rfl _)

/-- Settles O6: the step issues the word, and issue is `exec` of the decoded command on the latched state. -/
theorem stepIssuesTheDecodedCommand : Obligations.StepIssuesTheDecodedCommand := by
  refine ⟨fun s left w i hp hi hd => ?_, fun s nbits w i hd => ?_⟩
  · rw [step_cmdWrite_of_idle hp hi, issue_of_decode_ok hd]
    rfl
  · have hd := decode_of_decodeTableWord hd
    have hop : opcodeOf (BitVec.ofNat 32 (w % 2 ^ nbits)) = i.opcode := decodeOp_eq_ok_iff.1 hd
    rw [step_withFetchWord, issue_of_decode_ok hd, hop]
    rfl

/-- Settles O9: a reserved opcode is latched and failed in IDLE, where PHASE stays as it is; while busy a CMD write only
sets the flag. -/
theorem rejectedCommandsLeaveTheEngine : Obligations.RejectedCommandsLeaveTheEngine := by
  refine ⟨fun s left w e hp hi hd => ?_, fun s w rest => step_cmdWrite_of_wait⟩
  rw [step_cmdWrite_of_idle hp hi, issue_of_decode_error hd]
  simp only [fail, latch, opcodeOf, hp]

/-! ### Commands that end in their issue step (R122 to R124) -/

/-- SEAL and VERIFY of fewer than 32 bytes fail with PRECONDITION (R123). -/
theorem exec_sealSegment_of_short {s : State} (h : s.cmd.arg1L.toNat < 32) :
    exec .sealSegment s = .next (fail .precondition 0 s) := by
  rw [exec, execSeal, whenPre_pos rfl, if_pos h]

theorem exec_verify_of_short {s : State} (h : s.cmd.arg1L.toNat < 32) :
    exec .verify s = .next (fail .precondition 0 s) := by
  rw [exec, execVerify, whenPre_pos rfl, if_pos h]

/-- Settles O11: each CONN_STATE clause says that `pre` is false, and a command whose `pre` is false fails; the two
length checks follow a `pre` that holds in every CONN_STATE. -/
theorem preconditionFailureChangesNothingElse : Obligations.PreconditionFailureChangesNothingElse := by
  refine fun s => ⟨fun h => ?_, fun h => ?_, fun h => ?_, fun h => ?_⟩
  · have hpre := decide_eq_false h
    exact ⟨exec_of_not_pre hpre, exec_of_not_pre hpre⟩
  · exact exec_of_not_pre (decide_eq_false h)
  · have hpre := decide_eq_false h
    exact ⟨exec_of_not_pre hpre, exec_of_not_pre hpre, exec_of_not_pre hpre⟩
  · exact ⟨exec_sealSegment_of_short h, exec_verify_of_short h⟩

/-- OPEN has no CONN_STATE precondition: it always restores the record and completes (R122, R124). -/
theorem exec_openConn (s : State) : exec .openConn s = .next (complete 0 (openReset s)) := by
  rw [exec, execOpen, whenPre_pos rfl]

/-- Settles O19: the restored record with DONE set is the stated record, field by field (R320). -/
theorem openRestoresTheConnectionRecord : Obligations.OpenRestoresTheConnectionRecord := by
  intro s
  rw [exec_openConn]
  rfl

end Sys2Proof.Machine
end

section
/-! PROOFS. Seal and verify on byte sequences (R140, R142, R143, R151), and the codec commands (R147 to R150). -/

namespace Sys2Proof.Machine

/-! ### Byte by byte (R8, R140, R142) -/

/-- A byte sequence is its length and its bytes. -/
theorem eq_of_byteAt {b b' : List Byte} (hl : b.length = b'.length) (h : ∀ i, byteAt b i = byteAt b' i) : b = b' := by
  refine List.ext_getElem hl fun i hi hi' => ?_
  have hb := h i
  rwa [byteAt, byteAt, List.getD_eq_getElem _ _ hi, List.getD_eq_getElem _ _ hi'] at hb

/-- Bytes stored over the checksum field leave every byte outside it. -/
theorem byteAt_overField_outside {b v : List Byte} (hb : 32 ≤ b.length) (hv : v.length = 4) {i : Nat}
    (hi : i < 28 ∨ 32 ≤ i) : byteAt (b.take 28 ++ v ++ b.drop 32) i = byteAt b i := by
  have hhead : (b.take 28 ++ v).length = 32 := by
    rw [List.length_append, List.length_take_of_le (by omega), hv]
  simp only [byteAt, List.getD_eq_getElem?_getD]
  obtain hlow | hhigh := hi
  · rw [List.append_assoc, List.getElem?_append_left (by rw [List.length_take]; omega),
      List.getElem?_take_of_lt hlow]
  · rw [List.getElem?_append_right (by omega), hhead, List.getElem?_drop, Nat.add_sub_cancel' hhigh]

/-- Bytes stored over the checksum field are the bytes of that field. -/
theorem byteAt_overField_inside {b v : List Byte} (hb : 32 ≤ b.length) (hv : v.length = 4) {i : Nat}
    (hi : ¬ (i < 28 ∨ 32 ≤ i)) : byteAt (b.take 28 ++ v ++ b.drop 32) i = byteAt v (i - 28) := by
  have hhead : (b.take 28).length = 28 := List.length_take_of_le (by omega)
  simp only [byteAt, List.getD_eq_getElem?_getD]
  rw [List.append_assoc, List.getElem?_append_right (by omega), hhead, List.getElem?_append_left (by omega)]

theorem byteAt_sealWith_outside (ck : List Byte → Word) {b : List Byte} (hb : 32 ≤ b.length) {i : Nat}
    (hi : i < 28 ∨ 32 ≤ i) : byteAt (sealWith ck b) i = byteAt b i :=
  byteAt_overField_outside hb (be32_length _) hi

theorem byteAt_sealWith_inside (ck : List Byte → Word) {b : List Byte} (hb : 32 ≤ b.length) {i : Nat}
    (hi : ¬ (i < 28 ∨ 32 ≤ i)) : byteAt (sealWith ck b) i = byteAt (be32 (ck (csumInput b))) (i - 28) :=
  byteAt_overField_inside hb (be32_length _) hi

theorem csumInput_length {b : List Byte} (hb : 32 ≤ b.length) : (csumInput b).length = b.length := by
  simp only [csumInput, List.length_append, List.length_take, zeros_length, List.length_drop]
  omega

theorem byteAt_csumInput_outside {b : List Byte} (hb : 32 ≤ b.length) {i : Nat} (hi : i < 28 ∨ 32 ≤ i) :
    byteAt (csumInput b) i = byteAt b i := byteAt_overField_outside hb (zeros_length 4) hi

theorem byteAt_csumInput_inside {b : List Byte} (hb : 32 ≤ b.length) {i : Nat} (hi : ¬ (i < 28 ∨ 32 ≤ i)) :
    byteAt (csumInput b) i = byteAt (zeros 4) (i - 28) := byteAt_overField_inside hb (zeros_length 4) hi

/-- Sequences that differ in the checksum field at most have one checksum input (R140). -/
theorem csumInput_congr {b b' : List Byte} (hb : 32 ≤ b.length) (hl : b'.length = b.length)
    (h : ∀ i, i < 28 ∨ 32 ≤ i → byteAt b' i = byteAt b i) : csumInput b' = csumInput b := by
  have hb' : 32 ≤ b'.length := by omega
  refine eq_of_byteAt (by rw [csumInput_length hb', csumInput_length hb, hl]) fun i => ?_
  by_cases hi : i < 28 ∨ 32 ≤ i
  · rw [byteAt_csumInput_outside hb' hi, byteAt_csumInput_outside hb hi, h i hi]
  · rw [byteAt_csumInput_inside hb' hi, byteAt_csumInput_inside hb hi]

/-- Sealing does not see the old checksum field (R142). -/
theorem sealWith_congr (ck : List Byte → Word) {b b' : List Byte} (hb : 32 ≤ b.length) (hl : b'.length = b.length)
    (h : ∀ i, i < 28 ∨ 32 ≤ i → byteAt b' i = byteAt b i) : sealWith ck b' = sealWith ck b := by
  have hb' : 32 ≤ b'.length := by omega
  refine eq_of_byteAt (by rw [sealWith_length ck b' hb', sealWith_length ck b hb, hl]) fun i => ?_
  by_cases hi : i < 28 ∨ 32 ≤ i
  · rw [byteAt_sealWith_outside ck hb' hi, byteAt_sealWith_outside ck hb hi, h i hi]
  · rw [byteAt_sealWith_inside ck hb' hi, byteAt_sealWith_inside ck hb hi, csumInput_congr hb hl h]

/-! ### One flipped bit (R5, R151) -/

@[simp] theorem flipBit_length (b : List Byte) (p : Nat) : (flipBit b p).length = b.length := by simp [flipBit]

theorem byteAt_flipBit_ne (b : List Byte) {p i : Nat} (hi : i ≠ p / 8) : byteAt (flipBit b p) i = byteAt b i := by
  simp only [byteAt, flipBit, List.getD_eq_getElem?_getD, List.getElem?_modify_ne _ _ hi.symm]

theorem byteAt_flipBit_same {b : List Byte} {p : Nat} (hp : p / 8 < b.length) :
    byteAt (flipBit b p) (p / 8) = byteAt b (p / 8) ^^^ BitVec.twoPow 8 (p % 8) := by
  simp [byteAt, flipBit, List.getD_eq_getElem?_getD, hp]

/-- A bit flipped outside the checksum field is the same bit of the checksum input flipped. -/
theorem csumInput_flipBit {b : List Byte} {p : Nat} (hb : 32 ≤ b.length) (hp : p / 8 < b.length)
    (hout : p / 8 < 28 ∨ 32 ≤ p / 8) : csumInput (flipBit b p) = flipBit (csumInput b) p := by
  have hb' : 32 ≤ (flipBit b p).length := by rwa [flipBit_length]
  have hlen := csumInput_length hb
  refine eq_of_byteAt (by rw [csumInput_length hb', flipBit_length, flipBit_length, hlen]) fun i => ?_
  by_cases hi : i = p / 8
  · subst hi
    rw [byteAt_flipBit_same (hlen.symm ▸ hp), byteAt_csumInput_outside hb' hout, byteAt_csumInput_outside hb hout,
      byteAt_flipBit_same hp]
  · rw [byteAt_flipBit_ne _ hi]
    by_cases hf : i < 28 ∨ 32 ≤ i
    · rw [byteAt_csumInput_outside hb' hf, byteAt_csumInput_outside hb hf, byteAt_flipBit_ne b hi]
    · rw [byteAt_csumInput_inside hb' hf, byteAt_csumInput_inside hb hf]

/-- A bit flipped outside the checksum field leaves that field. -/
theorem csumOf_flipBit (b : List Byte) {p : Nat} (hout : p / 8 < 28 ∨ 32 ≤ p / 8) :
    csumOf (flipBit b p) = csumOf b := by
  simp (disch := omega) only [csumOf, rdBe32, rdBe16, byteAt_flipBit_ne]

theorem verifyWith_iff (ck : List Byte → Word) (b : List Byte) :
    verifyWith ck b = true ↔ csumOf b = ck (csumInput b) := beq_iff_eq

/-- R151: the flip changes the computed checksum and not the stored one. -/
theorem verifyWith_flipBit_sealWith {ck : List Byte → Word} (hck : SingleBitSensitive ck) {b : List Byte} {p : Nat}
    (hb : 32 ≤ b.length) (hp : p < 8 * b.length) (hout : ¬ (28 ≤ p / 8 ∧ p / 8 < 32)) :
    verifyWith ck (flipBit (sealWith ck b) p) = false := by
  have hout' : p / 8 < 28 ∨ 32 ≤ p / 8 := by omega
  have hlen := sealWith_length ck b hb
  rw [Bool.eq_false_iff, Ne, verifyWith_iff, csumOf_flipBit _ hout', csumOf_sealWith ck b hb,
    csumInput_flipBit (by omega) (by omega) hout', csumInput_sealWith ck b hb]
  exact (hck (csumInput b) p (by rwa [csumInput_length hb])).symm

/-- Settles O4: the flip clause for every engine is the one for every single-bit sensitive function, and idempotence is
independence of the old field, applied to the sealed sequence. -/
theorem sealAndVerifyAgree : Obligations.SealAndVerifyAgree := by
  refine ⟨⟨verifyWith_sealWith, fun ck b p hck => verifyWith_flipBit_sealWith hck, fun s b p =>
    verifyWith_flipBit_sealWith s.cfg.checksum.eval_singleBitSensitive⟩, fun ck b hb => ?_⟩
  have hout (i : Nat) (hi : i < 28 ∨ 32 ≤ i) := byteAt_sealWith_outside ck hb hi
  have hlen := sealWith_length ck b hb
  exact ⟨hlen, hout, csumOf_sealWith ck b hb, sealWith_congr ck hb hlen hout, fun b' => sealWith_congr ck hb⟩

/-! ### The codec commands (R147 to R150) -/

/-- Settles O21: the 32 bytes of the built header are written and read back, and the rest of memory stays. -/
theorem buildHeaderStoresASealedHeader : Obligations.BuildHeaderStoresASealedHeader := by
  intro s hwf hlend
  have hlen := buildHeader_length (ctrlOperand s) s
  have hwrite : Lends s .write s.cmd.arg1L.toNat (buildHeader (ctrlOperand s) s).length := by rwa [hlen]
  refine ⟨s.mem.writeBytes s.cmd.arg1L.toNat (buildHeader (ctrlOperand s) s), ?_, fun i hi => ?_, fun x hx => ?_⟩
  · rw [exec, execBuildHeader, whenPre_pos rfl, memWrite_of_lends _ _ _ _ hwrite]
    simp only [complete, buildHeader, ctrlOperand, State.ck]
  · exact Memory.get_writeBytes_inside _ _ _ hwf hwrite.1 i (by rwa [hlen])
  · exact Memory.get_writeBytes_outside _ _ _ hwf hwrite.1 x (by rwa [hlen])

/-- The bytes SEAL stores are the encoding of the checksum (R142, R148). -/
theorem sealWith_csum_bytes (ck : List Byte → Word) {b : List Byte} (hb : 32 ≤ b.length) :
    ((sealWith ck b).drop 28).take 4 = be32 (ck (csumInput b)) := by
  have hhead : (b.take 28).length = 28 := List.length_take_of_le (by omega)
  rw [sealWith, List.append_assoc, List.drop_left' hhead]
  exact List.take_left' (be32_length _)

/-- Settles O22: SEAL of at least 32 bytes writes the four bytes of the checksum it computes. -/
theorem sealStoresTheChecksum : Obligations.SealStoresTheChecksum := by
  refine ⟨fun s => exec_sealSegment_of_short, fun s hwf hn hread hwrite => ?_⟩
  have hb : 32 ≤ (s.mem.readBytes s.cmd.arg0L.toNat s.cmd.arg1L.toNat).length := by rwa [Memory.length_readBytes]
  refine ⟨_, ?_, fun i => Memory.get_writeBytes_inside _ _ (be32 _) hwf hwrite.1 i,
    Memory.get_writeBytes_outside _ _ (be32 _) hwf hwrite.1⟩
  rw [exec, execSeal, whenPre_pos rfl, if_neg (by omega), memRead_of_lends _ _ _ _ hread, sealWith_csum_bytes _ hb,
    memWrite_of_lends _ _ _ _ hwrite, csumOf_sealWith _ _ hb]
  rfl

/-- VERIFY of at least 32 bytes lent for reading ends as the test of R143 says (R149). -/
theorem exec_verify_of_lends {s : State} (hn : 32 ≤ s.cmd.arg1L.toNat)
    (hread : Lends s .read s.cmd.arg0L.toNat s.cmd.arg1L.toNat) :
    exec .verify s =
      if verifyWith s.ck (s.mem.readBytes s.cmd.arg0L.toNat s.cmd.arg1L.toNat) then .next (complete 1 s)
      else .next (fail .checksumMismatch 0 (logCsum s)) := by
  rw [exec, execVerify, whenPre_pos rfl, if_neg (by omega), memRead_of_lends _ _ _ _ hread]

/-- Settles O23: the test of R143 is equality of the stored and the computed checksum. -/
theorem verifyReportsTheChecksum : Obligations.VerifyReportsTheChecksum := by
  refine ⟨fun s => exec_verify_of_short, fun s hn hread => ⟨fun heq => ?_, fun hne => ?_⟩⟩ <;>
    rw [exec_verify_of_lends hn hread]
  · rw [if_pos ((verifyWith_iff s.ck _).2 heq)]
    rfl
  · rw [if_neg (mt (verifyWith_iff s.ck _).1 hne)]
    rfl

theorem exec_classify_of_length_4 {s : State} (h : s.cmd.arg1L = 4#32) :
    exec .classify s = .next (complete DgramClass.pfx.code s) := by
  rw [exec, execClassify, whenPre_pos rfl, h]
  rfl

theorem exec_classify_of_data {s : State} (h4 : s.cmd.arg1L ≠ 4#32) (h32 : s.cmd.arg1L ≠ 32#32) :
    exec .classify s = .next (complete DgramClass.data.code s) := by
  rw [exec, execClassify, whenPre_pos rfl, if_neg fun h : _ = 4 => h4 (BitVec.eq_of_toNat_eq h),
    if_pos fun h : _ = 32 => h32 (BitVec.eq_of_toNat_eq h)]

theorem exec_classify_of_length_32 {s : State} (h : s.cmd.arg1L = 32#32)
    (hread : Lends s .read (s.cmd.arg0L.toNat + 8) 2) :
    exec .classify s =
      .next (complete (classifyCtrl (rdBe16 (s.mem.readBytes (s.cmd.arg0L.toNat + 8) 2) 0)).code s) := by
  rw [exec, execClassify, whenPre_pos rfl, h, if_neg (by decide), if_neg (by decide), memRead_of_lends _ _ _ _ hread]

/-- Settles O24: the length decides codes 0 and 6, and for 32 bytes the class of the control field gives the code. -/
theorem classifyReportsTheClass : Obligations.ClassifyReportsTheClass := by
  refine fun s => ⟨exec_classify_of_length_4, exec_classify_of_data, fun h32 hread => ?_⟩
  rw [exec_classify_of_length_32 h32 hread]
  refine ⟨fun hc => ?_, fun hc => by rw [hc]; rfl, fun hc => by rw [hc]; rfl, fun hc => by rw [hc]; rfl,
    fun hfinack hack hsyn hsynack => ?_⟩
  · obtain ⟨h11, h14⟩ := (and_ctlFinAck_iff _).1 hc
    rw [classifyCtrl_finack h11 h14]
    rfl
  · rw [classifyCtrl_other (mt (and_ctlFinAck_iff _).2 hfinack) hack hsyn hsynack]
    rfl

end Sys2Proof.Machine
end

section
/-! PROOFS. The connection lifecycle: LISTEN, CONNECT, ACCEPT and SHUTDOWN, the segments a handshake or teardown waits
for, and the two exchanges between a pair of engines (R160 to R181). -/

namespace Sys2Proof.Machine

/-! ### Control segments (R85, R87, R141) -/

section
variable (p : Params) (dest q a : Word) (c w : Half)

@[simp] theorem controlTo_length : (controlTo p dest q a c w).bytes.length = 32 := by simp [controlTo]

@[simp] theorem seqOf_controlTo : seqOf (controlTo p dest q a c w).bytes = q := by
  simpa [controlTo] using seqOf_hdr q a c w 0 []

@[simp] theorem ackOf_controlTo : ackOf (controlTo p dest q a c w).bytes = a := by
  simpa [controlTo] using ackOf_hdr q a c w 0 []

@[simp] theorem ctrlOf_controlTo : ctrlOf (controlTo p dest q a c w).bytes = c := by
  simpa [controlTo] using ctrlOf_hdr q a c w 0 []

@[simp] theorem winOf_controlTo : winOf (controlTo p dest q a c w).bytes = w := by
  simpa [controlTo] using winOf_hdr q a c w 0 []

@[simp] theorem classify_controlTo : classify (controlTo p dest q a c w).bytes = classifyCtrl c := by
  rw [classify_of_length_32 (controlTo_length ..), ctrlOf_controlTo]

/-- An engine with the sender's CHECKSUM verifies its segments. -/
theorem verifyWith_controlTo {k : Checksum} (h : p.checksum = k) :
    verifyWith k.eval (controlTo p dest q a c w).bytes = true := by
  subst h
  exact verifyWith_sealWith _ _ (by simp)

end

/-! ### The commands (R160, R161, R164, R170) -/

/-- Settles O20: the state with ROLE and CONN_STATE written, completed. -/
theorem listenBindsTheServer : Obligations.ListenBindsTheServer :=
  fun _ => ⟨fun h => whenPre_pos (i := .listen) (decide_eq_true h) _, fun h => exec_of_not_pre (decide_eq_false h)⟩

/-- Settles O25: the one datagram is the SYN built from the registers CONNECT has just written. -/
theorem connectTransmitsTheSyn : Obligations.ConnectTransmitsTheSyn :=
  fun _ => ⟨fun h => whenPre_pos (i := .connect) (decide_eq_true h) _, fun h => exec_of_not_pre (decide_eq_false h)⟩

/-- Settles O26: SEQ_NUMBER and PHASE are all that ACCEPT writes. -/
theorem acceptWaitsForASyn : Obligations.AcceptWaitsForASyn :=
  fun _ => ⟨fun h => whenPre_pos (i := .accept) (decide_eq_true h) _, fun h => exec_of_not_pre (decide_eq_false h)⟩

/-- The datagrams of the reply sequence to the FIN|ACK with sequence number `p`: the ACK of it and this end's FIN|ACK
(R175). -/
def replySegments (p : Word) (s : State) : List Tx :=
  [controlTo s.cfg s.conn.peerAddr s.conn.seq (p + 1) ctlAck s.conn.currWindow,
   controlTo s.cfg s.conn.peerAddr (s.conn.seq + 1) (p + 1) ctlFinAck s.conn.currWindow]

/-- The reply sequence hands over the ACK of the peer's FIN and then this end's FIN|ACK (R175). -/
theorem replyClose_eq (p : Word) (s : State) : replyClose p s =
    { s with
      status := { s.status with connState := .closingByPeer, phase := .waitFinalAck }
      conn := { s.conn with ack := p + 1, seq := s.conn.seq + 1 }
      tx := s.tx ++ replySegments p s } := by
  simp only [replyClose, transmitCtl, transmit, List.append_assoc]
  rfl

/-- SHUTDOWN without a FIN from the peer sends the first FIN (R170). -/
theorem exec_shutdown_of_not_finSeen {s : State} (h : s.status.connState = .established)
    (hfin : s.status.finSeen = false) : exec .shutdown s = .next
      { transmitCtl ctlFinAck s with
        conn.seq := s.conn.seq + 1, status.connState := .closingByPeer, status.phase := .shdWaitAck } :=
  (whenPre_pos (i := .shutdown) (decide_eq_true h) _).trans (if_neg (Bool.eq_false_iff.1 hfin))

/-- SHUTDOWN after the peer's FIN runs the reply sequence (R170, R175). -/
theorem exec_shutdown_of_finSeen {s : State} (h : s.status.connState = .established)
    (hfin : s.status.finSeen = true) :
    exec .shutdown s = .next (replyClose s.conn.peerFinSeq { s with cmd.finalResult := 0 }) :=
  (whenPre_pos (i := .shutdown) (decide_eq_true h) _).trans (if_pos hfin)

/-- Settles O27: FIN_SEEN decides between the first FIN and the reply sequence. -/
theorem shutdownTransmitsTheFin : Obligations.ShutdownTransmitsTheFin := by
  refine fun s => ⟨fun h => exec_of_not_pre (decide_eq_false h), fun h hfin => ?_, fun h hfin => ?_⟩
  · rw [exec_shutdown_of_not_finSeen h hfin]
    rfl
  · rw [exec_shutdown_of_finSeen h hfin, replyClose_eq]
    rfl

/-! ### The awaited segments (R162, R165, R167, R169, R171, R173, R176) -/

/-- The state with the segment `b` in recv_buffer and a failed checksum logged (R169). -/
def received (b : List Byte) (s : State) : State :=
  { s with
    recvBuffer := b
    status.csumLog := if verifyWith s.ck b then s.status.csumLog else true }

/-- PEER_WINDOW after the segment `b`: its window field, when it verifies (R169). -/
def windowAfter (b : List Byte) (s : State) : Half := if verifyWith s.ck b then winOf b else s.conn.peerWindow

/-- A wrong value fails the command after the log (R169). -/
theorem fail_logCsumUnless (r : Word) (b : List Byte) (s : State) :
    fail .sequenceMismatch r (logCsumUnless (verifyWith s.ck b) { s with recvBuffer := b }) = mismatch r b s := by
  rw [logCsumUnless_eq]
  rfl

section
variable {s : State} {b : List Byte} {src : Word} (hc : s.cfg.wf = true)
include hc

/-- The SYN|ACK that acknowledges the SYN establishes the client (R162). -/
theorem rxEvent_synack (hp : s.status.phase = .connWaitSynack) (hb : classify b = .synack)
    (ha : ackOf b = s.conn.seq + 1) : rxEvent (.datagram b src) s = .next
      (complete 0
        { transmitCtl ctlAck
            { received b s with
              conn.peerWindow := windowAfter b s, conn.ack := seqOf b + 1, conn.seq := s.conn.seq + 1 } with
          status.connState := .established, status.rxbufValid := true }) := by
  rw [rxEvent_control src hc hb nofun nofun]
  simp only [dispatchEvent, hp]
  rw [rxConnWaitSynack, if_neg (not_not.2 hb), if_neg (not_not.2 ha)]
  simp only [logCsumUnless_eq]
  rfl

/-- A SYN binds its source and is answered with SYN|ACK (R165). -/
theorem rxEvent_syn (hp : s.status.phase = .accWaitSyn) (hb : classify b = .syn) : rxEvent (.datagram b src) s = .next
      { transmitCtl ctlSynAck
          { received b s with
            conn.peerAddr := src, conn.peerWindow := windowAfter b s, conn.ack := seqOf b + 1 } with
        status.phase := .accWaitAck } := by
  rw [rxEvent_control src hc hb nofun nofun]
  simp only [dispatchEvent, hp]
  rw [rxAccWaitSyn, if_neg (not_not.2 hb)]
  simp only [logCsumUnless_eq]
  rfl

/-- The ACK of the SYN|ACK establishes the server (R167). -/
theorem rxEvent_ack_of_synack (hp : s.status.phase = .accWaitAck) (hb : classify b = .ack)
    (ha : ackOf b = s.conn.seq + 1) (hq : seqOf b = s.conn.ack) : rxEvent (.datagram b src) s = .next
      (complete s.conn.peerAddr
        { received b s with
          conn.peerWindow := windowAfter b s
          conn.seq := s.conn.seq + 1
          status.connState := .established
          status.rxbufValid := true }) := by
  rw [rxEvent_control src hc hb nofun nofun]
  simp only [dispatchEvent, hp]
  rw [rxAccWaitAck, if_neg (not_not.2 hb), if_neg (by simp [ha, hq])]
  simp only [logCsumUnless_eq]
  rfl

/-- The ACK of the first FIN starts the wait for the peer's FIN (R171). -/
theorem rxEvent_ack_of_fin (hp : s.status.phase = .shdWaitAck) (hb : classify b = .ack)
    (ha : ackOf b = s.conn.seq) (hq : seqOf b = s.conn.ack) : rxEvent (.datagram b src) s = .next
      { received b s with status.phase := .shdWaitFin } := by
  rw [rxEvent_control src hc hb nofun nofun]
  simp only [dispatchEvent, hp]
  rw [rxShdWaitAck, if_neg (not_not.2 hb), if_neg (by simp [ha, hq])]
  simp only [logCsumUnless_eq]
  rfl

/-- The peer's FIN|ACK is answered with an ACK and closes the connection (R173). -/
theorem rxEvent_fin (hp : s.status.phase = .shdWaitFin) (hb : classify b = .finack) :
    rxEvent (.datagram b src) s = .next
      (complete 0
        { transmitCtl ctlAck { received b s with conn.ack := seqOf b + 1 } with
          status.connState := .closed, status.rxbufValid := false }) := by
  rw [rxEvent_control src hc hb nofun nofun]
  simp only [dispatchEvent, hp]
  rw [rxShdWaitFin, if_neg (not_not.2 hb)]
  simp only [logCsumUnless_eq]
  rfl

/-- The ACK of the reply sequence's FIN closes the connection (R176). -/
theorem rxEvent_final_ack (hp : s.status.phase = .waitFinalAck) (hb : classify b = .ack)
    (ha : ackOf b = s.conn.seq + 1) (hq : seqOf b = s.conn.ack) : rxEvent (.datagram b src) s = .next
      (complete s.cmd.finalResult
        { received b s with
          conn.seq := s.conn.seq + 1, status.connState := .closed, status.rxbufValid := false }) := by
  rw [rxEvent_control src hc hb nofun nofun]
  simp only [dispatchEvent, hp]
  rw [rxWaitFinalAck, if_neg (not_not.2 hb), if_neg (by simp [ha, hq])]
  simp only [logCsumUnless_eq]
  rfl

end

/-- Settles O32: the rule of each clause's segment, for both outcomes of its checksum. -/
theorem handshakeSegmentsEstablish : Obligations.HandshakeSegmentsEstablish := by
  intro s b src hc v log win up
  refine ⟨rxEvent_synack hc, fun hp hb hne => ?_, rxEvent_syn hc, rxEvent_ack_of_synack hc, fun hp hb hne => ?_⟩
  all_goals
    rw [rxEvent_control src hc hb nofun nofun]
    simp only [dispatchEvent, hp]
  · rw [rxConnWaitSynack, if_neg (not_not.2 hb), if_pos hne]
    exact congrArg _ (fail_logCsumUnless 0 b s)
  · rw [rxAccWaitAck, if_neg (not_not.2 hb), if_pos hne]
    exact congrArg _ (fail_logCsumUnless 0 b s)

/-- Settles O34: the rule of each clause's segment, for both outcomes of its checksum. -/
theorem teardownSegmentsAdvanceToClosed : Obligations.TeardownSegmentsAdvanceToClosed := by
  intro s b src hc log
  refine ⟨rxEvent_ack_of_fin hc, fun hp hb hne => ?_, fun hp hb hne => ?_, rxEvent_fin hc, rxEvent_final_ack hc⟩
  all_goals
    rw [rxEvent_control src hc hb nofun nofun]
    simp only [dispatchEvent, hp]
  · rw [rxShdWaitAck, if_neg (not_not.2 hb), if_pos hne]
    exact congrArg _ (fail_logCsumUnless 0 b s)
  · rw [rxWaitFinalAck, if_neg (not_not.2 hb), if_pos hne]
    exact congrArg _ (fail_logCsumUnless s.cmd.finalResult b s)

/-! ### Every other event in those waits (R163, R166, R168, R172, R174, R177) -/

/-- RESULT when a wait of the handshake or teardown fails: final_result in WAIT_FINAL_ACK, else 0. -/
def failureResult (s : State) : Word := if s.status.phase = .waitFinalAck then s.cmd.finalResult else 0

/-- The phase's rule checks the class before anything else (R163, R166, R168, R172, R174, R177). -/
theorem dispatchEvent_of_other_class {s : State} {k : DgramClass} {b : List Byte} (src : Word)
    (h : awaited s.status.phase = some k) (hb : classify b ≠ k) :
    dispatchEvent (.datagram b src) s = .next (fail .protocolViolation (failureResult s) s) := by
  cases hp : s.status.phase <;> rw [hp] at h <;> cases h <;> simp only [dispatchEvent, failureResult, hp]
  all_goals exact if_pos hb

/-- A TimedOut fails every such wait but ACC_WAIT_SYN (R163, R168, R172, R174, R177). -/
theorem dispatchEvent_timedOut {s : State} {k : DgramClass} (h : awaited s.status.phase = some k)
    (hne : s.status.phase ≠ .accWaitSyn) :
    dispatchEvent .timedOut s = .next (fail .timeout (failureResult s) s) := by
  cases hp : s.status.phase <;> rw [hp] at h hne <;> cases h <;> simp only [dispatchEvent, failureResult, hp]
  case accWaitSyn => exact absurd rfl hne
  all_goals rfl

/-- Settles O33: by class for a datagram, on the state with it in recv_buffer, and by phase for a TimedOut. -/
theorem otherEventsFailTheHandshakeAndTeardown : Obligations.OtherEventsFailTheHandshakeAndTeardown := by
  intro s b src k hlen hk r
  refine ⟨fun hb => ?_, fun hne => dispatchEvent_timedOut hk hne, fun hp => ?_⟩
  · rw [rxEvent_datagram src hlen]
    exact dispatchEvent_of_other_class (s := withDatagram b s) src hk hb
  · rw [rxEvent_timedOut, dispatchEvent, hp]
    rfl

/-! ### The handshake of a pair (R181) -/

/-- A step that hands nothing over has sent nothing (R270). -/
theorem sentBy_of_tx_eq {s t : State} (h : t.tx = s.tx) : sentBy s t = [] := by simp [sentBy, h]

/-- The client's part: CONNECT sends the SYN, and a SYN|ACK that acknowledges it establishes the client. -/
theorem client_handshake {s : State} {synack : List Byte} (src : Word) (hc : s.cfg.wf = true)
    (hinv : s.status.connState = .invalid) (hclass : classify synack = .synack)
    (hack : ackOf synack = s.cmd.arg0L + 1) (hver : verifyWith s.cfg.checksum.eval synack = true) :
    ∃ t u, exec .connect s = .next t ∧
      sentBy s t = [controlTo s.cfg s.cmd.arg1L s.cmd.arg0L 0 ctlSyn s.conn.currWindow] ∧
      rxEvent (.datagram synack src) t = .next u ∧
      sentBy t u =
        [controlTo s.cfg s.cmd.arg1L (s.cmd.arg0L + 1) (seqOf synack + 1) ctlAck s.conn.currWindow] ∧
      u.status.connState = .established ∧ u.status.phase = .idle ∧ u.status.err = false ∧
      u.conn.seq = s.cmd.arg0L + 1 ∧ u.conn.ack = seqOf synack + 1 ∧ u.conn.peerWindow = winOf synack ∧
      u.conn.peerAddr = s.cmd.arg1L := by
  obtain ⟨hconnect, -⟩ := connectTransmitsTheSyn s
  exact ⟨_, _, hconnect hinv, sentBy_of_append rfl, rxEvent_synack hc rfl hclass hack, sentBy_of_append rfl,
    rfl, rfl, rfl, rfl, rfl, if_pos hver, rfl⟩

/-- The server's part: ACCEPT sends nothing, the SYN is answered with SYN|ACK, and an ACK of it establishes the
server. -/
theorem server_handshake {s : State} {syn ack : List Byte} (src : Word) (hc : s.cfg.wf = true)
    (hlisten : s.status.connState = .listen) (hsyn : classify syn = .syn) (hack : classify ack = .ack)
    (hacked : ackOf ack = s.cmd.arg0L + 1) (hnext : seqOf ack = seqOf syn + 1)
    (hver : verifyWith s.cfg.checksum.eval ack = true) :
    ∃ t u v, exec .accept s = .next t ∧ sentBy s t = [] ∧
      rxEvent (.datagram syn src) t = .next u ∧
      sentBy t u = [controlTo s.cfg src s.cmd.arg0L (seqOf syn + 1) ctlSynAck s.conn.currWindow] ∧
      rxEvent (.datagram ack src) u = .next v ∧ sentBy u v = [] ∧
      v.status.connState = .established ∧ v.status.phase = .idle ∧ v.status.err = false ∧
      v.conn.seq = s.cmd.arg0L + 1 ∧ v.conn.ack = seqOf syn + 1 ∧ v.conn.peerWindow = winOf ack ∧
      v.conn.peerAddr = src ∧ v.result = src := by
  obtain ⟨haccept, -⟩ := acceptWaitsForASyn s
  exact ⟨_, _, _, haccept hlisten, sentBy_of_tx_eq rfl, rxEvent_syn hc rfl hsyn, sentBy_of_append rfl,
    rxEvent_ack_of_synack hc rfl hack hacked hnext, sentBy_of_tx_eq rfl, rfl, rfl, rfl, rfl, rfl, if_pos hver,
    rfl, rfl⟩

/-- Settles O57: the two parts joined, each on the segments that the other sends. -/
theorem handshakeEstablishesBothEnds : Obligations.HandshakeEstablishesBothEnds := by
  intro a b ha hb hwa hwb hck hinv hlisten
  let syn := (controlTo a.cfg a.cmd.arg1L a.cmd.arg0L 0 ctlSyn a.conn.currWindow).bytes
  let synack := (controlTo b.cfg ha b.cmd.arg0L (a.cmd.arg0L + 1) ctlSynAck b.conn.currWindow).bytes
  let ack := (controlTo a.cfg a.cmd.arg1L (a.cmd.arg0L + 1) (b.cmd.arg0L + 1) ctlAck a.conn.currWindow).bytes
  have hsyn : classify syn = .syn := classify_controlTo ..
  have hsynack : classify synack = .synack := classify_controlTo ..
  have hack : classify ack = .ack := classify_controlTo ..
  have hseqSyn : seqOf syn = a.cmd.arg0L := seqOf_controlTo ..
  have hseqSynack : seqOf synack = b.cmd.arg0L := seqOf_controlTo ..
  have hseqAck : seqOf ack = seqOf syn + 1 := (seqOf_controlTo ..).trans (by rw [hseqSyn])
  have hwinSynack : winOf synack = b.conn.currWindow := winOf_controlTo ..
  have hwinAck : winOf ack = a.conn.currWindow := winOf_controlTo ..
  obtain ⟨a1, a2, hconnect, hsentSyn, hrxSynack, hsentAck, hestA, hidleA, herrA, hseqA, hackA, hwinA, hpeerA⟩ :=
    client_handshake hb hwa hinv hsynack (ackOf_controlTo ..) (verifyWith_controlTo _ _ _ _ _ _ hck.symm)
  obtain ⟨b1, b2, b3, haccept, hquiet, hrxSyn, hsentSynack, hrxAck, hquiet', hestB, hidleB, herrB, hseqB, hackB,
      hwinB, hpeerB, hresultB⟩ :=
    server_handshake ha hwb hlisten hsyn hack (ackOf_controlTo ..) hseqAck (verifyWith_controlTo _ _ _ _ _ _ hck)
  rw [hseqSyn] at hsentSynack hackB
  rw [hseqSynack] at hsentAck hackA
  rw [hwinSynack] at hwinA
  rw [hwinAck] at hwinB
  exact ⟨a1, b1, b2, a2, b3, syn, synack, ack, hconnect, haccept, hsentSyn, hquiet, hrxSyn, hsentSynack, hrxSynack,
    hsentAck, hrxAck, hquiet', hsyn, hsynack, hack, hestA, hestB, hidleA, hidleB, herrA, herrB, hseqA, hackA, hseqB,
    hackB, hwinA, hwinB, hpeerA, hpeerB, hresultB⟩

/-! ### The teardown of a pair (R178) -/

/-- The FIN|ACK rule of RCV_WAIT for a server: the reply sequence (R244). -/
theorem rcvFinack_of_server {s : State} (b : List Byte) (hr : s.status.role = .server) : rcvFinack b s =
    .next (replyClose (seqOf b)
      { logCsumUnless (verifyWith s.ck b) s with cmd.finalResult := s.prog.rxWritten }) := by
  simp only [rcvFinack, hr]

/-- The FIN|ACK rule of RCV_WAIT for a client: the FIN is recorded and the RECV completes (R244). -/
theorem rcvFinack_of_client {s : State} (b : List Byte) (hr : s.status.role = .client) : rcvFinack b s =
    .next (complete s.prog.rxWritten
      { logCsumUnless (verifyWith s.ck b) s with conn.peerFinSeq := seqOf b, status.finSeen := true }) := by
  simp only [rcvFinack, hr]

section
variable {s : State} {b : List Byte} {src : Word} (hc : s.cfg.wf = true)
include hc

/-- A FIN|ACK in RCV_WAIT clears consec_to and runs the FIN|ACK rule (R241). -/
theorem rxEvent_fin_in_rcvWait (hp : s.status.phase = .rcvWait) (hb : classify b = .finack) :
    rxEvent (.datagram b src) s = rcvFinack b { s with recvBuffer := b, consecTo := 0 } := by
  rw [rxEvent_control src hc hb nofun nofun]
  simp only [dispatchEvent, hp]
  simp only [rxRcvWait, hb]

/-- The peer's FIN|ACK in RCV_WAIT starts a server's reply sequence (R244, R175). -/
theorem rxEvent_fin_at_server (hp : s.status.phase = .rcvWait) (hb : classify b = .finack)
    (hr : s.status.role = .server) : rxEvent (.datagram b src) s = .next
      (replyClose (seqOf b) { received b s with consecTo := 0, cmd.finalResult := s.prog.rxWritten }) := by
  rw [rxEvent_fin_in_rcvWait hc hp hb, rcvFinack_of_server b (by exact hr), logCsumUnless_eq]
  rfl

/-- The peer's FIN|ACK in RCV_WAIT is recorded by a client, whose RECV completes (R244). -/
theorem rxEvent_fin_at_client (hp : s.status.phase = .rcvWait) (hb : classify b = .finack)
    (hr : s.status.role = .client) : rxEvent (.datagram b src) s = .next
      (complete s.prog.rxWritten
        { received b s with consecTo := 0, conn.peerFinSeq := seqOf b, status.finSeen := true }) := by
  rw [rxEvent_fin_in_rcvWait hc hp hb, rcvFinack_of_client b (by exact hr), logCsumUnless_eq]
  rfl

/-- The first end's part: SHUTDOWN sends the FIN|ACK, and the peer's ACK and FIN|ACK close the connection. -/
theorem initiator_teardown {ack fin : List Byte} (hest : s.status.connState = .established)
    (hseen : s.status.finSeen = false) (hack : classify ack = .ack) (hacked : ackOf ack = s.conn.seq + 1)
    (hnext : seqOf ack = s.conn.ack) (hfin : classify fin = .finack) :
    ∃ t u v, exec .shutdown s = .next t ∧
      sentBy s t = [controlTo s.cfg s.conn.peerAddr s.conn.seq s.conn.ack ctlFinAck s.conn.currWindow] ∧
      rxEvent (.datagram ack src) t = .next u ∧ sentBy t u = [] ∧
      rxEvent (.datagram fin src) u = .next v ∧
      sentBy u v =
        [controlTo s.cfg s.conn.peerAddr (s.conn.seq + 1) (seqOf fin + 1) ctlAck s.conn.currWindow] ∧
      v.status.connState = .closed ∧ v.status.rxbufValid = false ∧ v.status.err = false ∧
      v.conn.seq = s.conn.seq + 1 ∧ v.conn.ack = seqOf fin + 1 :=
  ⟨_, _, _, exec_shutdown_of_not_finSeen hest hseen, sentBy_of_append rfl,
    rxEvent_ack_of_fin hc rfl hack hacked hnext, sentBy_of_tx_eq rfl,
    rxEvent_fin hc rfl hfin, sentBy_of_append rfl, rfl, rfl, rfl, rfl, rfl⟩

/-- The end of the other part: after the reply sequence, the ACK of its FIN closes the connection. -/
theorem replyClose_then_final_ack {p : Word} {ack : List Byte} (hack : classify ack = .ack)
    (hacked : ackOf ack = s.conn.seq + 2) (hnext : seqOf ack = p + 1) :
    ∃ t, rxEvent (.datagram ack src) (replyClose p s) = .next t ∧ sentBy (replyClose p s) t = [] ∧
      t.status.connState = .closed ∧ t.status.rxbufValid = false ∧ t.status.err = false ∧
      t.conn.seq = s.conn.seq + 2 ∧ t.conn.ack = p + 1 := by
  have htwo : s.conn.seq + 1 + 1 = s.conn.seq + 2 := BitVec.add_assoc ..
  exact ⟨_, rxEvent_final_ack (s := replyClose p s) hc rfl hack (hacked.trans htwo.symm) hnext,
    sentBy_of_tx_eq rfl, rfl, rfl, rfl, htwo, rfl⟩

end

/-- The reply sequence transmits the two datagrams of R178 that its end sends. -/
theorem sentBy_replyClose (p : Word) {s u : State} (htx : u.tx = s.tx) : sentBy s (replyClose p u) =
    replySegments p u := by
  rw [replyClose_eq]
  exact sentBy_of_append (congrArg (· ++ _) htx)

/-- The other end's part, the FIN|ACK taken in RCV_WAIT and the SHUTDOWN of a client: by either role it runs the reply
sequence, from registers that are otherwise those of its RECV. -/
theorem peer_replies {s : State} {fin : List Byte} (src : Word) (hc : s.cfg.wf = true)
    (hest : s.status.connState = .established) (hp : s.status.phase = .rcvWait) (hfin : classify fin = .finack) :
    ∃ u, u.cfg = s.cfg ∧ u.conn.seq = s.conn.seq ∧
      (s.status.role = .server → rxEvent (.datagram fin src) s = .next (replyClose (seqOf fin) u) ∧
        sentBy s (replyClose (seqOf fin) u) = replySegments (seqOf fin) s) ∧
      (s.status.role = .client → ∃ r, rxEvent (.datagram fin src) s = .next r ∧ sentBy s r = [] ∧
        r.status.phase = .idle ∧ r.status.finSeen = true ∧
        exec .shutdown (latch 0x07#8 r) = .next (replyClose (seqOf fin) u) ∧
        sentBy r (replyClose (seqOf fin) u) = replySegments (seqOf fin) s) := by
  cases hr : s.status.role with
  | server =>
    refine ⟨_, ?_, ?_, fun _ => ⟨rxEvent_fin_at_server hc hp hfin hr, sentBy_replyClose _ rfl⟩, nofun⟩ <;> rfl
  | client =>
    refine ⟨_, ?_, ?_, nofun, fun _ => ⟨_, rxEvent_fin_at_client hc hp hfin hr,
      sentBy_of_tx_eq rfl, rfl, rfl, exec_shutdown_of_finSeen hest rfl, sentBy_replyClose _ rfl⟩⟩ <;> rfl

/-- Settles O58: the two parts joined, each on the segments that the other sends. -/
theorem teardownClosesBothEnds : Obligations.TeardownClosesBothEnds := by
  intro a b ha hb hwa hwb _ hestA hseen hestB hp hab _
  let fin1 := (controlTo a.cfg a.conn.peerAddr a.conn.seq a.conn.ack ctlFinAck a.conn.currWindow).bytes
  let ack1 := (controlTo b.cfg b.conn.peerAddr b.conn.seq (a.conn.seq + 1) ctlAck b.conn.currWindow).bytes
  let fin2 := (controlTo b.cfg b.conn.peerAddr (b.conn.seq + 1) (a.conn.seq + 1) ctlFinAck b.conn.currWindow).bytes
  let ack2 := (controlTo a.cfg a.conn.peerAddr (a.conn.seq + 1) (b.conn.seq + 1 + 1) ctlAck a.conn.currWindow).bytes
  have htwo : b.conn.seq + 1 + 1 = b.conn.seq + 2 := BitVec.add_assoc ..
  have hfin1 : classify fin1 = .finack := classify_controlTo ..
  have hack1 : classify ack1 = .ack := classify_controlTo ..
  have hfin2 : classify fin2 = .finack := classify_controlTo ..
  have hack2 : classify ack2 = .ack := classify_controlTo ..
  have hseqFin1 : seqOf fin1 = a.conn.seq := seqOf_controlTo ..
  have hseqAck1 : seqOf ack1 = b.conn.seq := seqOf_controlTo ..
  have hackAck1 : ackOf ack1 = a.conn.seq + 1 := ackOf_controlTo ..
  have hseqFin2 : seqOf fin2 = b.conn.seq + 1 := seqOf_controlTo ..
  have hseqAck2 : seqOf ack2 = a.conn.seq + 1 := seqOf_controlTo ..
  have hackAck2 : ackOf ack2 = b.conn.seq + 2 := (ackOf_controlTo ..).trans htwo
  obtain ⟨a1, a2, a3, hshutdown, hsentFin1, hrxAck1, hquiet, hrxFin2, hsentAck2, hclosedA, hrelA, herrA, hseqA,
      hackA⟩ :=
    initiator_teardown (src := hb) hwa hestA hseen hack1 hackAck1 (hseqAck1.trans hab.symm) hfin2
  obtain ⟨u, hcfg, hseqU, hserver, hclient⟩ := peer_replies ha hwb hestB hp hfin1
  rw [hseqFin1] at hserver hclient
  rw [hseqFin2] at hsentAck2 hackA
  rw [htwo] at hackA
  rw [← hseqU] at hackAck2
  obtain ⟨b2, hrxAck2, hquiet', hclosedB, hrelB, herrB, hseqB, hackB⟩ :=
    replyClose_then_final_ack (src := ha) (hcfg ▸ hwb) hack2 hackAck2 hseqAck2
  rw [hseqU] at hackAck2 hseqB
  exact ⟨a1, a2, a3, replyClose a.conn.seq u, b2, fin1, ack1, fin2, ack2, hshutdown, hsentFin1, hserver, hclient,
    hrxAck1, hquiet, hrxFin2, hsentAck2, hrxAck2, hquiet', hfin1, hseqFin1, (ackOf_controlTo ..).trans hab, hack1,
    hseqAck1, hackAck1, hfin2, hseqFin2, ackOf_controlTo .., hack2, hseqAck2, hackAck2, hclosedA, hclosedB, hrelA, hrelB,
    herrA, herrB, hseqA, hackA, hseqB, hackB⟩

end Sys2Proof.Machine
end

section
/-! PROOFS. The send engine: what a round start, a TimedOut, a datagram that is no ACK, an ACK and an advance do, and what
SEND's issue hands over (R201 to R223). -/

namespace Sys2Proof.Machine

/-! ### Round starts (R201 to R206, R223) -/

/-- A round start with nothing left completes the SEND (R202, R223). -/
theorem startRound_of_confirmed {s : State} (h : off s s.conn.seq = s.snd.len) :
    startRound s = .next (complete s.snd.len { s with prog.txDelivered := s.snd.len }) := by
  have hrem : s.snd.len - s.snd.len = 0 := BitVec.sub_self _
  rw [startRound, h, if_pos hrem]

/-- Each chunk of a round is lent when the round is (R204, R205). -/
theorem lends_chunk {s : State} {j : Nat} (hmss : 1 ≤ s.cfg.mss.toNat)
    (h : Lends s .read (s.snd.src.toNat + (off s s.snd.roundSeq).toNat) s.snd.roundLen.toNat)
    (hj : j < ceilDiv s.snd.roundLen.toNat s.cfg.mss.toNat) : Lends s .read (chunkAddr s j) (chunkLen s j) := by
  have := mul_lt_of_lt_ceilDiv hmss hj
  refine h.sub _ _ ?_ ?_
  · rw [chunkAddr]
    omega
  · rw [chunkAddr, chunkLen]
    omega

/-- The chunks of a new round are those the round's offset and length name (R204, R205). -/
theorem chunkTx_beginRound (s : State) {r : Nat} (hr : r < 4294967296) (i : Nat) :
    chunkTx (beginRound (off s s.conn.seq).toNat r s) i = chunkTo s s.conn.seq (off s s.conn.seq).toNat r i := by
  have hlen : chunkLen (beginRound (off s s.conn.seq).toNat r s) i =
      min s.cfg.mss.toNat (r - i * s.cfg.mss.toNat) := by
    rw [chunkLen, beginRound_roundLen_toNat s hr]
    rfl
  simp only [chunkTx, chunkSegment, hlen]
  rfl

/-- A round whose bytes are lent begins, and all its chunks leave (R202 to R206). -/
theorem startRound_of_lends {s : State} {d r : Nat} (hmss : 1 ≤ s.cfg.mss.toNat) (hd : (off s s.conn.seq).toNat = d)
    (hrem : s.snd.len - off s s.conn.seq ≠ 0) (hr : roundSize s (s.snd.len - off s s.conn.seq).toNat = r)
    (hsmall : r ≤ 65535) (hl : Lends s .read (s.snd.src.toNat + d) r) :
    startRound s = .next
      { beginRound d r { s with prog.txDelivered := BitVec.ofNat 32 d } with
        tx := s.tx ++ (List.range (ceilDiv r s.cfg.mss.toNat)).map (chunkTo s s.conn.seq d r) } := by
  have hoff : BitVec.ofNat 32 d = off s s.conn.seq := by rw [← hd, BitVec.ofNat_toNat, BitVec.setWidth_eq]
  subst hd
  let s1 : State := { s with prog.txDelivered := off s s.conn.seq }
  have hlen := beginRound_roundLen_toNat s1 (d := (off s s.conn.seq).toNat) (r := r) (by omega)
  have hn := beginRound_roundN_toNat s1 (d := (off s s.conn.seq).toNat) (r := r) hmss (by omega)
  have hchunk : ∀ i, chunkTx (beginRound (off s s.conn.seq).toNat r s1) i =
      chunkTo s s.conn.seq (off s s.conn.seq).toNat r i := chunkTx_beginRound s1 (by omega)
  rw [startRound, if_neg hrem, hr, hoff]
  show transmitChunks (beginRound _ r s1).snd.roundN.toNat 0 (beginRound _ r s1) = _
  rw [transmitChunks_of_lends, hn, List.range_eq_range', List.map_congr_left fun i _ => hchunk i]
  · rfl
  · intro j _ hj
    rw [Nat.zero_add, hn, ← hlen] at hj
    exact lends_chunk hmss (by rw [hlen]; exact hl) hj

/-- Settles O35: with no byte left the SEND completes; else the bytes of the round are lent, so it begins. -/
theorem roundStartCompletesOrTransmits : Obligations.RoundStartCompletesOrTransmits := by
  intro s hc hw d hd _ r n
  refine ⟨fun h => startRound_of_confirmed (BitVec.eq_of_toNat_eq h), fun hlt hl => ?_⟩
  obtain ⟨hmss, -⟩ := Params.wf_bounds hc
  have hleft : (s.snd.len - off s s.conn.seq).toNat = s.snd.len.toNat - d := BitVec.toNat_sub_of_le hd
  have hrem : s.snd.len - off s s.conn.seq ≠ 0 := fun h0 => by
    rw [h0] at hleft
    change 0 = _ at hleft
    omega
  have hr : roundSize s (s.snd.len - off s s.conn.seq).toNat = r := by rw [hleft]; rfl
  obtain ⟨hpos, hsmall, -⟩ := roundSize_bounds s hw (show 1 ≤ s.snd.len.toNat - d by omega)
  rw [← hleft, hr] at hpos hsmall
  exact ⟨startRound_of_lends hmss rfl hrem hr hsmall hl, ceilDiv_pos hmss hpos, hsmall⟩

/-- The state in which SEND's issue starts its first round: the length prefix has left (R201). -/
def sendIssued (s : State) : State :=
  transmit s.conn.peerAddr (lengthPrefix s.cmd.arg1L)
    { s with
      snd := { s.snd with src := s.cmd.arg0L, len := s.cmd.arg1L, base := s.conn.seq, maxOff := 0 }
      consecTo := 0
      prog := { s.prog with txDelivered := 0, roundStart := 0 } }

theorem exec_send {s : State} (h : s.status.connState = .established) : exec .send s = startRound (sendIssued s) := by
  rw [exec, execSend, whenPre_pos (by rw [h]; rfl)]
  rfl

@[simp] theorem off_sendIssued (s : State) : off (sendIssued s) s.conn.seq = 0 := BitVec.sub_self _

theorem sendIssued_tx_append (s : State) (l : List Tx) :
    (sendIssued s).tx ++ l = s.tx ++ ⟨s.conn.peerAddr, lengthPrefix s.cmd.arg1L⟩ :: l := by simp [sendIssued]

/-- Settles O29: the round start after the prefix is at offset 0, so the first round holds the payload's first bytes, and
a SEND of length 0 completes. -/
theorem sendTransmitsPrefixAndFirstRound : Obligations.SendTransmitsPrefixAndFirstRound := by
  refine ⟨fun s hc hest hw => ?_, fun s hest h0 => ?_⟩
  · intro len r n hpos hl
    have hleft : s.cmd.arg1L - (s.conn.seq - s.conn.seq) = s.cmd.arg1L := by simp
    obtain ⟨-, hsmall, -⟩ := roundSize_bounds (sendIssued s) (left := len) hw hpos
    have hround := startRound_of_lends (s := sendIssued s) (d := 0) (r := r) (Params.wf_bounds hc).1
      (congrArg BitVec.toNat (off_sendIssued s))
      (fun h => hpos.ne' (congrArg BitVec.toNat (hleft.symm.trans h)))
      (congrArg (fun x : Word => roundSize (sendIssued s) x.toNat) hleft) hsmall hl
    have hmax : max (sendIssued s).snd.maxOff.toNat (0 + r) = r := by
      rw [Nat.zero_add]
      exact Nat.zero_max r
    rw [exec_send hest, hround, sendIssued_tx_append, beginRound, hmax]
    rfl
  · have hoff : off (sendIssued s) (sendIssued s).conn.seq = (sendIssued s).snd.len :=
      (off_sendIssued s).trans h0.symm
    rw [exec_send hest, startRound_of_confirmed hoff]
    rw [sendIssued, h0]
    rfl

/-! ### TimedOut (R209 to R211) -/

theorem rxEvent_timedOut_of_sndWaitAck {s : State} (hp : s.status.phase = .sndWaitAck) :
    rxEvent .timedOut s = sndTimedOut s := by
  rw [rxEvent_timedOut, dispatchEvent, hp]
  rfl

theorem retriesExhausted_iff (s : State) :
    retriesExhausted s = true ↔ s.cfg.maxRetries ≠ 0 ∧ s.cfg.maxRetries.toNat ≤ s.consecTo.toNat := by
  simp [retriesExhausted]

/-- Settles O36: both ways out of a TimedOut, told apart by the retry bound. -/
theorem sendTimeoutCollapsesTheWindow : Obligations.SendTimeoutCollapsesTheWindow := by
  intro s hp th cnt s1 d
  have hs1 : collapse (countTimeout s) = s1 := rfl
  have hcnt : s1.consecTo.toNat = cnt := satAdd32_toNat s.consecTo 1
  rw [rxEvent_timedOut_of_sndWaitAck hp, sndTimedOut, hs1]
  refine ⟨fun hne hle => ?_, fun hlt => ?_⟩
  · rw [if_pos ((retriesExhausted_iff s1).2 ⟨hne, hcnt ▸ hle⟩)]
    rfl
  · refine if_neg fun hx => ?_
    obtain ⟨hne, hle⟩ := (retriesExhausted_iff s1).1 hx
    have hle : s.cfg.maxRetries.toNat ≤ cnt := hcnt ▸ hle
    exact hlt.elim hne (by omega)

/-! ### Datagrams (R208, R212 to R218) -/

/-- Settles O37: the datagram is stored, consec_to is 0, and what is no ACK is logged. -/
theorem sendIgnoresOtherClasses : Obligations.SendIgnoresOtherClasses := by
  intro s b src hp hl hc
  rw [rxEvent_datagram src hl, dispatchEvent, hp]
  exact if_pos hc

/-- An ACK runs the rules of R213 to R219 on the state that holds it, with consec_to 0 (R208). -/
theorem rxEvent_ack_of_sndWaitAck {s : State} {b : List Byte} (src : Word) (hc : s.cfg.wf = true)
    (hp : s.status.phase = .sndWaitAck) (hb : classify b = .ack) :
    rxEvent (.datagram b src) s = sndAck b { s with recvBuffer := b, consecTo := 0 } := by
  rw [rxEvent_control src hc hb nofun nofun, dispatchEvent, hp]
  exact if_neg (not_not.2 hb)

/-- R214, R215: the verified ack of chunk `wait_k` gives the peer's window and is taken in order. -/
theorem rxEvent_ack_in_order {s : State} {b : List Byte} (src : Word) (hc : s.cfg.wf = true)
    (hp : s.status.phase = .sndWaitAck) (hb : classify b = .ack) (hv : verifyWith s.ck b = true)
    (hk : ackOf b = endSeq s s.snd.waitK.toNat) :
    rxEvent (.datagram b src) s =
      advance (ackInOrder { s with recvBuffer := b, consecTo := 0, conn.peerWindow := winOf b }) := by
  rw [rxEvent_ack_of_sndWaitAck src hc hp hb]
  exact (if_pos hv).trans (if_pos hk)

/-- R214, R218: a verified ack of another value gives the peer's window and is taken out of order. -/
theorem rxEvent_ack_out_of_order {s : State} {b : List Byte} (src : Word) (hc : s.cfg.wf = true)
    (hp : s.status.phase = .sndWaitAck) (hb : classify b = .ack) (hv : verifyWith s.ck b = true)
    (hk : ackOf b ≠ endSeq s s.snd.waitK.toNat) :
    rxEvent (.datagram b src) s =
      advance (ackOutOfOrder (ackOf b) { s with recvBuffer := b, consecTo := 0, conn.peerWindow := winOf b }) := by
  rw [rxEvent_ack_of_sndWaitAck src hc hp hb]
  exact (if_pos hv).trans (if_neg hk)

/-- R216, R217: CWND grows in slow start and once per round above SSTHRESH, where the growth is noted. -/
theorem growCwnd_eq_ite (s : State) :
    growCwnd s =
      { s with
        conn.cwnd := if decide (s.conn.cwnd.toNat < s.conn.ssthresh.toNat) || !s.snd.caGrown
          then satAdd32 s.conn.cwnd s.cfg.mss else s.conn.cwnd
        snd.caGrown := if decide (s.conn.cwnd.toNat < s.conn.ssthresh.toNat) then s.snd.caGrown else true } := by
  by_cases hslow : s.conn.cwnd.toNat < s.conn.ssthresh.toNat
  · simp [growCwnd, hslow]
  · cases hg : s.snd.caGrown with
    | false => simp [growCwnd, hslow, hg]
    | true =>
      have hs : s = { s with snd := { s.snd with caGrown := true } } := by rw [← hg]
      simpa [growCwnd, hslow, hg] using hs

/-- Settles O38: the in-order branch, with its growth. -/
theorem inOrderAckConfirmsAndGrows : Obligations.InOrderAckConfirmsAndGrows := by
  intro s b src hc hp hb hv endK hend slow grown
  rw [rxEvent_ack_in_order src hc hp hb hv hend, ackInOrder, growCwnd_eq_ite]
  rfl

/-- Settles O39: the two ways to be a duplicate, and for the verified one whether it is recorded. -/
theorem outOfOrderAckCountsAsDuplicate : Obligations.OutOfOrderAckCountsAsDuplicate := by
  intro s b src hc hp hb offs endK dup inRange
  refine ⟨fun hv => ?_, fun hv hne hr => ?_, fun hv hne hr => ?_⟩
  · rw [rxEvent_ack_of_sndWaitAck src hc hp hb]
    exact if_neg (Bool.eq_false_iff.1 hv)
  · rw [rxEvent_ack_out_of_order src hc hp hb hv hne]
    exact congrArg advance (if_pos hr)
  · rw [rxEvent_ack_out_of_order src hc hp hb hv hne]
    exact congrArg advance (if_neg hr)

/-! ### The end of a round (R219 to R222) -/

/-- R221: the round ends with SEQ_NUMBER at the recorded ack, if there is one and it is ahead. -/
theorem confirmRecorded_eq (s : State) :
    confirmRecorded s = { s with conn.seq :=
      if s.snd.recValid ∧ (off s s.conn.seq).toNat < (off s s.snd.recAck).toNat then s.snd.recAck else s.conn.seq } := by
  unfold confirmRecorded
  split <;> rfl

/-- Settles O40: the two outcomes of R219, and at a round's end the two of R220. -/
theorem advanceWaitsOrEndsTheRound : Obligations.AdvanceWaitsOrEndsTheRound := by
  intro s half s1
  refine ⟨fun hne => if_neg hne, fun he => ?_⟩
  intro seq
  have hend : advance s = startRound (confirmRecorded (halveIfDup s1)) := if_pos he
  rw [hend, confirmRecorded_eq]
  refine ⟨fun h0 => ?_, fun hne => ?_⟩
  · have hh : halveIfDup s1 = s1 := if_neg (by show ¬ s.snd.roundDup.toNat > 0; rw [h0]; decide)
    rw [hh]
    rfl
  · have hpos : s.snd.roundDup.toNat > 0 := Nat.pos_of_ne_zero fun h0 => hne (BitVec.eq_of_toNat_eq h0)
    rw [halveIfDup, if_pos hpos]
    rfl

/-! ### The confirmed offset (R206, R225) -/

/-- From `s` to `t` the confirmed offset of the SEND does not decrease, nor does it pass what `s` has transmitted. -/
structure Confirms (s t : State) : Prop where
  base : t.snd.base = s.snd.base
  len : t.snd.len = s.snd.len
  grows : (off s s.conn.seq).toNat ≤ (off t t.conn.seq).toNat
  sent : (off t t.conn.seq).toNat ≤ s.snd.maxOff.toNat
  maxOff : s.snd.maxOff.toNat ≤ t.snd.maxOff.toNat

/-- A state that differs in none of the registers the offsets are made of. -/
theorem Confirms.of_eq {s t : State} (hb : t.snd.base = s.snd.base) (hl : t.snd.len = s.snd.len)
    (hseq : t.conn.seq = s.conn.seq) (hmax : s.snd.maxOff.toNat ≤ t.snd.maxOff.toNat)
    (h : (off s s.conn.seq).toNat ≤ s.snd.maxOff.toNat) : Confirms s t := by
  have hoff : off t t.conn.seq = off s s.conn.seq := by rw [off, off, hseq, hb]
  exact ⟨hb, hl, Nat.le_of_eq (congrArg _ hoff.symm), hoff ▸ h, hmax⟩

/-- A step before which SEQ_NUMBER has moved up. -/
theorem Confirms.after {s u t : State} (h : Confirms u t) (hb : u.snd.base = s.snd.base) (hl : u.snd.len = s.snd.len)
    (hmax : u.snd.maxOff = s.snd.maxOff) (hseq : (off s s.conn.seq).toNat ≤ (off u u.conn.seq).toNat) :
    Confirms s t :=
  ⟨h.base.trans hb, h.len.trans hl, hseq.trans h.grows, hmax ▸ h.sent, hmax ▸ h.maxOff⟩

theorem startRound_confirms {s t : State} (hseq : (off s s.conn.seq).toNat ≤ s.snd.maxOff.toNat)
    (hmax : s.snd.maxOff.toNat ≤ s.snd.len.toNat) (h : startRound s = .next t) : Confirms s t := by
  obtain ⟨-, rfl⟩ | ⟨-, u, rfl, rfl, -⟩ := startRound_cases h
  · exact .of_eq rfl rfl rfl (Nat.le_refl _) hseq
  · refine .of_eq rfl rfl rfl ?_ hseq
    have hlen := s.snd.len.isLt
    have hleft : (s.snd.len - off s s.conn.seq).toNat = s.snd.len.toNat - (off s s.conn.seq).toNat :=
      BitVec.toNat_sub_of_le (hseq.trans hmax)
    have hr : roundSize s (s.snd.len - off s s.conn.seq).toNat ≤ (s.snd.len - off s s.conn.seq).toNat :=
      (min_le_right _ _).trans (min_le_right _ _)
    simp only [beginRound, BitVec.toNat_ofNat]
    omega

theorem roundEnd_confirms {k : Nat} {s t : State} (hi : RoundInv k s) (h : roundEnd s = .next t) : Confirms s t := by
  obtain ⟨w, th, n, he⟩ := halveIfDup_eq s
  rw [roundEnd, he, confirmRecorded] at h
  split at h
  · rename_i hrec
    refine (startRound_confirms ?_ ?_ h).after rfl rfl rfl (Nat.le_of_lt hrec.2)
    · exact hi.recorded hrec.1
    · exact hi.insidePayload
  · refine (startRound_confirms ?_ ?_ h).after rfl rfl rfl (Nat.le_refl _)
    · exact hi.seq_le
    · exact hi.insidePayload

theorem AckTaken.advance_confirms {s t : State} (hs : AckTaken s) (h : Machine.advance s = .next t) : Confirms s t := by
  have hi : RoundInv (s.snd.waitK.toNat + 1) { s with snd.waitK := s.snd.waitK + 1 } := { hs.round with }
  unfold Machine.advance at h
  dsimp only at h
  split at h
  · exact (roundEnd_confirms hi h).after rfl rfl rfl (Nat.le_refl _)
  · cases h
    exact .of_eq rfl rfl rfl (Nat.le_refl _) hs.round.seq_le

/-- The end of the awaited chunk is not behind SEQ_NUMBER (R215). -/
theorem SendInv.seq_le_endSeq {s : State} (h : SendInv s) :
    (off s s.conn.seq).toNat ≤ (off s (endSeq s s.snd.waitK.toNat)).toNat := by
  have hle : s.snd.waitK.toNat * s.cfg.mss.toNat ≤ (s.snd.waitK.toNat + 1) * s.cfg.mss.toNat :=
    Nat.mul_le_mul_right _ (Nat.le_succ _)
  have := h.seqHigh
  rw [off_endSeq s _ h.transmitted]
  omega

/-- An out-of-order ack changes the duplicate counts and the recorded ack only (R218). -/
theorem ackOutOfOrder_eq (a : Word) (s : State) :
    ∃ r v, ackOutOfOrder a s = { countDup s with snd := { (countDup s).snd with recAck := r, recValid := v } } := by
  unfold ackOutOfOrder
  dsimp only
  split
  · exact ⟨_, _, rfl⟩
  · exact ⟨s.snd.recAck, s.snd.recValid, rfl⟩

/-- An ACK confirms at most what has been transmitted, in order and out of order. -/
theorem sndAck_confirms {s t : State} {b : List Byte} (hs : Sending s) (hp : s.status.phase = .sndWaitAck)
    (hi : SendInv s) (h : sndAck b s = .next t) : Confirms s t := by
  unfold sndAck at h
  dsimp only at h
  split at h
  · have hs' : Sending { s with conn.peerWindow := winOf b } :=
      { hs with core := { hs.core with }, noOutcome := { hs.noOutcome with } }
    split at h
    · have ht := (hs'.ackInOrder hp { hi with }).advance_confirms h
      obtain ⟨w, g, he⟩ := ackInOrder_eq (s := { s with conn.peerWindow := winOf b }) rfl
      rw [he] at ht
      exact ht.after rfl rfl rfl hi.seq_le_endSeq
    · have ht := (hs'.ackOutOfOrder hp { hi with } (ackOf b)).advance_confirms h
      obtain ⟨r, v, he⟩ := ackOutOfOrder_eq (ackOf b) { s with conn.peerWindow := winOf b }
      rw [he] at ht
      exact ht.after rfl rfl rfl (Nat.le_refl _)
  · have hs' : Sending (logCsum s) := { hs with core := { hs.core with }, noOutcome := { hs.noOutcome with } }
    exact ((hs'.countDup hp { hi with }).advance_confirms h).after rfl rfl rfl (Nat.le_refl _)

theorem EngineInv.runningSend {s : State} (h : EngineInv s) (hp : s.status.phase = .sndWaitAck) : Sending s where
  core := h.core
  noOutcome := h.noOutcome (by rw [hp]; nofun)
  established := by simpa [phaseConnOk, hp] using h.phaseConn
  op := by simpa [phaseOpOk, hp] using h.phaseOp
  retries := h.retries (.inl hp)

/-- Settles O55: each event leaves SEQ_NUMBER, or moves it to the end of a chunk or a recorded ack, both of them inside
what has been transmitted. -/
theorem confirmedOffsetNeverDecreases : Obligations.ConfirmedOffsetNeverDecreases := by
  intro s t e h hp ht
  suffices hc : Confirms s t from ⟨hc.base, hc.len, hc.grows, hc.sent, hc.maxOff⟩
  have ht := rxEvent_cases ht
  rw [dispatchEvent, storeDatagram_status, hp] at ht
  have hi := h.sending hp
  cases e with
  | timedOut =>
    change sndTimedOut s = _ at ht
    unfold sndTimedOut at ht
    dsimp only at ht
    split at ht
    · cases ht
      exact .of_eq rfl rfl rfl (Nat.le_refl _) hi.round.seq_le
    · refine (startRound_confirms ?_ ?_ ht).after rfl rfl rfl (Nat.le_refl _)
      · exact hi.round.seq_le
      · exact hi.insidePayload
  | datagram b src =>
    have hd := (h.storeDatagram (.datagram b src)).runningSend hp
    have hs : Sending (withDatagram b { s with consecTo := 0 }) :=
      { hd with core := { hd.core with }, noOutcome := { hd.noOutcome with }, retries := .of_zero rfl }
    change (if classify b ≠ .ack then _ else _) = _ at ht
    split at ht
    · cases ht
      exact .of_eq rfl rfl rfl (Nat.le_refl _) hi.round.seq_le
    · exact (sndAck_confirms hs hp { hi with } ht).after rfl rfl rfl (Nat.le_refl _)

end Sys2Proof.Machine
end

section
/-! PROOFS. A lossless transfer (R226, R277): what the two ends and the datagrams between them are at every point of a run,
as one invariant that each delivery keeps. -/

namespace Sys2Proof.Machine

/-! ### The bytes that the chunks of a round reach (R204, R205) -/

/-- The offset in the payload that the first `j` chunks of the round reach. -/
def reached (s : State) (j : Nat) : Nat :=
  (off s s.snd.roundSeq).toNat + min (j * s.cfg.mss.toNat) s.snd.roundLen.toNat

theorem reached_zero (s : State) : reached s 0 = (off s s.snd.roundSeq).toNat := by simp [reached]

theorem reached_succ (s : State) (j : Nat) : reached s (j + 1) = reached s j + chunkLen s j := by
  simp only [reached, chunkLen, Nat.add_mul]
  omega

theorem reached_le (s : State) (j : Nat) : reached s j ≤ (off s s.snd.roundSeq).toNat + s.snd.roundLen.toNat := by
  simp only [reached]
  omega

/-- A sequence number is as far past `snd_base` as its offset says (R16). -/
theorem base_add_off (s : State) (x : Word) : s.snd.base + BitVec.ofNat 32 (off s x).toNat = x := by
  rw [BitVec.ofNat_toNat, BitVec.setWidth_eq, off]
  exact add_sub_cancel s.snd.base x

theorem endSeq_eq_reached (s : State) (k : Nat) :
    endSeq s k = s.snd.base + BitVec.ofNat 32 (reached s (k + 1)) := by
  rw [reached, BitVec.ofNat_add, ← BitVec.add_assoc, base_add_off]
  rfl

/-- A chunk of a round: where it stands, and that it holds a byte and at most MSS. -/
theorem chunk_of_lt {s : State} {j : Nat} (hmss : 1 ≤ s.cfg.mss.toNat)
    (hj : j < ceilDiv s.snd.roundLen.toNat s.cfg.mss.toNat) :
    1 ≤ chunkLen s j ∧ chunkLen s j ≤ s.cfg.mss.toNat ∧ chunkAddr s j = s.snd.src.toNat + reached s j ∧
      s.snd.roundSeq + BitVec.ofNat 32 (j * s.cfg.mss.toNat) = s.snd.base + BitVec.ofNat 32 (reached s j) := by
  have hlt := mul_lt_of_lt_ceilDiv hmss hj
  have hr : reached s j = (off s s.snd.roundSeq).toNat + j * s.cfg.mss.toNat := by
    rw [reached]
    omega
  refine ⟨?_, min_le_left .., ?_, ?_⟩
  · rw [chunkLen]
    omega
  · rw [hr, chunkAddr, Nat.add_assoc]
  · rw [hr, BitVec.ofNat_add, ← BitVec.add_assoc, base_add_off]

/-! ### The datagrams of a transfer -/

/-- `x` is the data segment of `n` payload bytes of `a`'s SEND, from byte `w` of the payload. -/
structure SegmentAt (a : State) (w n : Nat) (x : List Byte) : Prop where
  pos : 1 ≤ n
  small : n ≤ a.cfg.mss.toNat
  fits : w + n ≤ a.cmd.arg1L.toNat
  length : x.length = 32 + n
  verified : verifyWith a.ck x = true
  seq : seqOf x = a.conn.seq + BitVec.ofNat 32 w
  payload : payloadOf x = a.mem.readBytes (a.cmd.arg0L.toNat + w) n

/-- `x` acknowledges the first `w` payload bytes of `a`'s SEND. -/
structure AckAt (a : State) (w : Nat) (x : List Byte) : Prop where
  cls : classify x = .ack
  verified : verifyWith a.ck x = true
  ack : ackOf x = a.conn.seq + BitVec.ofNat 32 w

/-- The end of a command with RESULT `r` and no error (R14). -/
structure CompletedWith (r : Word) (s : State) : Prop where
  phase : s.status.phase = .idle
  done : s.status.done = true
  err : s.status.err = false
  result : s.result = r

theorem complete_completedWith (r : Word) (s : State) : CompletedWith r (complete r s) := ⟨rfl, rfl, rfl, rfl⟩

/-! ### The sender -/

/-- What `a`'s SEND keeps of `a` from its issue to its end, when no duplicate and no timeout comes. -/
structure SenderKeeps (a s : State) : Prop where
  cfg : s.cfg = a.cfg
  mem : s.mem = a.mem
  lent : s.lent = a.lent
  peer : s.conn.peerAddr = a.conn.peerAddr
  count : s.count = a.count
  src : s.snd.src = a.cmd.arg0L
  len : s.snd.len = a.cmd.arg1L
  base : s.snd.base = a.conn.seq

/-- `a`'s SEND in a round in which every acknowledgement so far came in order. -/
structure SenderAt (a s : State) : Prop where
  keeps : SenderKeeps a s
  phase : s.status.phase = .sndWaitAck
  cwndPos : 1 ≤ s.conn.cwnd.toNat
  roundCount : s.snd.roundN.toNat = ceilDiv s.snd.roundLen.toNat s.cfg.mss.toNat
  waiting : s.snd.waitK.toNat < s.snd.roundN.toNat
  fits : (off s s.snd.roundSeq).toNat + s.snd.roundLen.toNat ≤ a.cmd.arg1L.toNat
  noDup : s.snd.roundDup = 0
  noRec : s.snd.recValid = false

/-- `a`'s SEND in a round of which `j` chunks have arrived, which reach `w` bytes of the payload: the other chunks are
the data segments in flight, and what is in flight back acknowledges the chunks from `wait_k` to the `j`-th. -/
structure RoundFlight (a : State) (w j : Nat) (segs acks : List (List Byte)) (s : State) : Prop where
  sender : SenderAt a s
  acked : s.snd.waitK.toNat ≤ j
  arrived : j ≤ s.snd.roundN.toNat
  position : w = reached s j
  segs : segs = (List.range' j (s.snd.roundN.toNat - j)).map fun i => (chunkTx s i).bytes
  acks : List.Forall₂ (fun i x => AckAt a (reached s (i + 1)) x)
    (List.range' s.snd.waitK.toNat (j - s.snd.waitK.toNat)) acks

/-- `a`'s SEND at its end, with nothing in flight. -/
structure SenderDone (a : State) (w : Nat) (segs acks : List (List Byte)) (s : State) : Prop where
  completed : CompletedWith a.cmd.arg1L s
  count : s.count = a.count
  seq : s.conn.seq = a.conn.seq + a.cmd.arg1L
  position : w = a.cmd.arg1L.toNat
  noSegs : segs = []
  noAcks : acks = []

/-- `a`'s SEND at any point of a lossless transfer, with the data segments and acknowledgements in flight. -/
def SenderSide (a : State) (w : Nat) (segs acks : List (List Byte)) (s : State) : Prop :=
  (∃ j, RoundFlight a w j segs acks s) ∨ SenderDone a w segs acks s

theorem Lends.of_lent {s t : State} {k : Access} {x n : Nat} (h : Lends s k x n) (hl : t.lent = s.lent) :
    Lends t k x n := ⟨h.1, hl ▸ h.2⟩

section
variable {a s : State} {w j : Nat} {segs acks : List (List Byte)}

/-- A new round, of which no chunk has arrived and no acknowledgement has been taken. -/
theorem SenderKeeps.beginRound {r : Nat} {l : List Tx} (h : SenderKeeps a s) (hmss : 1 ≤ s.cfg.mss.toNat)
    (hw : 1 ≤ s.conn.cwnd.toNat) (hoff : (off s s.conn.seq).toNat = w) (hpos : 1 ≤ r) (hsmall : r ≤ 65535)
    (hfits : w + r ≤ a.cmd.arg1L.toNat) :
    RoundFlight a w 0 ((List.range (ceilDiv r s.cfg.mss.toNat)).map fun i => (chunkTo s s.conn.seq w r i).bytes) []
      { beginRound w r { s with prog.txDelivered := BitVec.ofNat 32 w } with tx := l } := by
  let s1 : State := { s with prog.txDelivered := BitVec.ofNat 32 w }
  have hlen := beginRound_roundLen_toNat s1 (d := w) (r := r) (by omega)
  have hn := beginRound_roundN_toNat s1 (d := w) (r := r) hmss (by omega)
  have hchunk : ∀ i, chunkTx (Machine.beginRound w r s1) i = chunkTo s s.conn.seq w r i := by
    subst hoff
    exact chunkTx_beginRound s1 (by omega)
  exact {
    sender := {
      keeps := { h with }
      phase := rfl
      cwndPos := hw
      roundCount := hn.trans (congrArg (ceilDiv · _) hlen.symm)
      waiting := hn ▸ ceilDiv_pos hmss hpos
      fits := by
        rw [← hoff, ← hlen] at hfits
        exact hfits
      noDup := rfl
      noRec := rfl }
    acked := Nat.le_refl 0
    arrived := Nat.zero_le _
    position := by
      rw [reached_zero]
      exact hoff.symm
    segs := by
      show _ = (List.range' 0 ((Machine.beginRound w r s1).snd.roundN.toNat - 0)).map
        fun i => (chunkTx (Machine.beginRound w r s1) i).bytes
      simp only [hchunk, hn, Nat.sub_zero, List.range_eq_range']
      rfl
    acks := .nil }

/-- A round start at offset `w` completes the SEND or puts the chunks of a new round in flight (R202, R223). -/
theorem SenderKeeps.startRound (h : SenderKeeps a s) (hc : a.cfg.wf = true)
    (hl : Lends a .read a.cmd.arg0L.toNat a.cmd.arg1L.toNat) (hw : 1 ≤ s.conn.cwnd.toNat)
    (hoff : (off s s.conn.seq).toNat = w) (hle : w ≤ a.cmd.arg1L.toNat) :
    ∃ t sent, startRound s = .next t ∧ t.tx = s.tx ++ sent ∧ (∀ d ∈ sent, d.dest = a.conn.peerAddr) ∧
      SenderSide a w (sent.map Tx.bytes) [] t := by
  have hseq : s.conn.seq = a.conn.seq + BitVec.ofNat 32 w := by rw [← hoff, ← h.base, base_add_off]
  rcases Nat.eq_or_lt_of_le hle with heq | hlt
  · have hconf : off s s.conn.seq = s.snd.len := BitVec.eq_of_toNat_eq (by rw [hoff, heq, h.len])
    refine ⟨_, [], startRound_of_confirmed hconf, (List.append_nil _).symm, nofun, .inr ?_⟩
    exact {
      completed := h.len ▸ complete_completedWith _ _
      count := h.count
      seq := by
        show s.conn.seq = _
        rw [hseq, heq, BitVec.ofNat_toNat, BitVec.setWidth_eq]
      position := heq
      noSegs := rfl
      noAcks := rfl }
  · have hmss : 1 ≤ s.cfg.mss.toNat := h.cfg ▸ (Params.wf_bounds hc).1
    have hleft : (s.snd.len - off s s.conn.seq).toNat = a.cmd.arg1L.toNat - w := by
      rw [h.len, BitVec.toNat_sub_of_le (by rw [BitVec.le_def, hoff]; exact hle), hoff]
    have hrem : s.snd.len - off s s.conn.seq ≠ 0 := fun h0 => by
      rw [h0] at hleft
      change 0 = _ at hleft
      omega
    obtain ⟨r, hr⟩ : ∃ r, roundSize s (a.cmd.arg1L.toNat - w) = r := ⟨_, rfl⟩
    obtain ⟨hpos, hsmall, hfit⟩ := roundSize_bounds s hw (show 1 ≤ a.cmd.arg1L.toNat - w by omega)
    rw [hr] at hpos hsmall hfit
    have hround := startRound_of_lends hmss hoff hrem (by rw [hleft, hr]) hsmall
      ((h.src ▸ hl.of_lent h.lent).sub _ _ (Nat.le_add_right ..) (by rw [h.src]; omega))
    refine ⟨_, _, hround, rfl, by simp [chunkTo, h.peer], .inl ⟨0, ?_⟩⟩
    rw [List.map_map]
    exact h.beginRound hmss hw hoff hpos hsmall (by omega)

/-- The bytes in place are bytes of the payload. -/
theorem RoundFlight.le (h : RoundFlight a w j segs acks s) : w ≤ a.cmd.arg1L.toNat :=
  h.position ▸ (reached_le s j).trans h.sender.fits

/-- In-order growth leaves SEQ_NUMBER at the end of the awaited chunk and CWND positive (R215 to R217). -/
theorem ackInOrder_grows (h : 1 ≤ s.conn.cwnd.toNat) :
    ∃ c g, 1 ≤ c.toNat ∧ ackInOrder s = { s with
      conn := { s.conn with seq := endSeq s s.snd.waitK.toNat, cwnd := c }, snd.caGrown := g } := by
  have hpos := growCwnd_cwnd_pos { s with conn.seq := endSeq s s.snd.waitK.toNat } h
  obtain ⟨c, g, he⟩ := growCwnd_eq { s with conn.seq := endSeq s s.snd.waitK.toNat }
  rw [he] at hpos
  exact ⟨c, g, hpos, he⟩

/-- The end of a round without duplicates starts the next one (R219 to R222). -/
theorem advance_of_last (hk : s.snd.waitK + 1 = s.snd.roundN) (hdup : s.snd.roundDup = 0)
    (hrec : s.snd.recValid = false) : advance s = startRound { s with snd.waitK := s.snd.waitK + 1 } := by
  rw [((advanceWaitsOrEndsTheRound s).2 hk).1 hdup, hrec]
  simp only [Bool.false_eq_true, false_and, if_false]

/-- The oldest acknowledgement in flight is that of the awaited chunk. -/
theorem RoundFlight.awaited {x : List Byte} (h : RoundFlight a w j segs (x :: acks) s) :
    s.snd.waitK.toNat < j ∧ AckAt a (reached s (s.snd.waitK.toNat + 1)) x ∧
      List.Forall₂ (fun i y => AckAt a (reached s (i + 1)) y)
        (List.range' (s.snd.waitK.toNat + 1) (j - (s.snd.waitK.toNat + 1))) acks := by
  have hacks := h.acks
  cases hm : j - s.snd.waitK.toNat with
  | zero => rw [hm] at hacks; cases hacks
  | succ m =>
    rw [hm, List.range'_succ, List.forall₂_cons] at hacks
    rw [show j - (s.snd.waitK.toNat + 1) = m by omega]
    exact ⟨by omega, hacks⟩

/-- The in-order acknowledgement confirms its chunk; the engine then advances, with the acknowledgement still counted
as in flight (R208, R214 to R217). -/
theorem RoundFlight.confirm {x : List Byte} (h : RoundFlight a w j segs (x :: acks) s) (hc : a.cfg.wf = true)
    (src : Word) :
    ∃ u, rxEvent (.datagram x src) s = advance u ∧ u.tx = s.tx ∧ u.conn.seq = endSeq u u.snd.waitK.toNat ∧
      RoundFlight a w j segs (x :: acks) u := by
  have hs := h.sender
  obtain ⟨-, hx, -⟩ := h.awaited
  have hend : ackOf x = endSeq s s.snd.waitK.toNat := by rw [hx.ack, endSeq_eq_reached, hs.keeps.base]
  have hck : verifyWith s.ck x = true := by rw [State.ck, hs.keeps.cfg]; exact hx.verified
  obtain ⟨c, g, hpos, hgrow⟩ :=
    ackInOrder_grows (s := { s with recvBuffer := x, consecTo := 0, conn.peerWindow := winOf x }) hs.cwndPos
  rw [rxEvent_ack_in_order src (hs.keeps.cfg ▸ hc) hs.phase hx.cls hck hend, hgrow]
  exact ⟨_, rfl, rfl, rfl, { h with sender := { hs with keeps := { hs.keeps with }, cwndPos := hpos } }⟩

/-- Before the last acknowledgement of a round the wait moves to the next chunk (R219). -/
theorem RoundFlight.next {x : List Byte} (h : RoundFlight a w j segs (x :: acks) s)
    (hne : s.snd.waitK + 1 ≠ s.snd.roundN) : RoundFlight a w j segs acks { s with snd.waitK := s.snd.waitK + 1 } := by
  have hs := h.sender
  have hw := hs.waiting
  obtain ⟨hlt, -, hacks⟩ := h.awaited
  have hk := toNat_add_one_of_lt hw
  have hN : s.snd.waitK.toNat + 1 ≠ s.snd.roundN.toNat := fun he => hne (BitVec.eq_of_toNat_eq (hk.trans he))
  rw [← hk] at hacks hN
  have hlt' : (s.snd.waitK + 1).toNat < s.snd.roundN.toNat := by omega
  exact { h with
    sender := { hs with keeps := { hs.keeps with }, waiting := hlt' }
    acked := hk ▸ hlt
    acks := hacks }

/-- When the last acknowledgement of a round comes, every chunk has arrived and nothing else is in flight. -/
theorem RoundFlight.last {x : List Byte} (h : RoundFlight a w j segs (x :: acks) s)
    (heq : s.snd.waitK + 1 = s.snd.roundN) :
    segs = [] ∧ acks = [] ∧ w = reached s (s.snd.waitK.toNat + 1) := by
  obtain ⟨hlt, -, hacks⟩ := h.awaited
  have hk := toNat_add_one_of_lt h.sender.waiting
  rw [heq] at hk
  obtain rfl : j = s.snd.waitK.toNat + 1 := by have := h.arrived; omega
  have hsegs := h.segs
  rw [hk, Nat.sub_self] at hsegs
  rw [Nat.sub_self, List.range'_zero, List.forall₂_nil_left_iff] at hacks
  exact ⟨hsegs, hacks, h.position⟩

/-- An offset inside 32 bits is that of the number it is past `snd_base`. -/
theorem off_base_add (s : State) {n : Nat} (h : n < 4294967296) : (off s (s.snd.base + BitVec.ofNat 32 n)).toNat = n := by
  rw [off, add_sub_cancel_left, BitVec.toNat_ofNat, Nat.mod_eq_of_lt h]

/-- An in-order acknowledgement: the SEND waits for the next chunk's, starts its next round, or completes. -/
theorem RoundFlight.ack {x : List Byte} (h : RoundFlight a w j segs (x :: acks) s) (hc : a.cfg.wf = true)
    (hl : Lends a .read a.cmd.arg0L.toNat a.cmd.arg1L.toNat) (src : Word) :
    ∃ t sent, rxEvent (.datagram x src) s = .next t ∧ t.tx = s.tx ++ sent ∧
      (∀ d ∈ sent, d.dest = a.conn.peerAddr) ∧ SenderSide a w (segs ++ sent.map Tx.bytes) acks t := by
  obtain ⟨u, hrx, htx, hseq, hu⟩ := h.confirm hc src
  rw [hrx, ← htx]
  by_cases hlast : u.snd.waitK + 1 = u.snd.roundN
  · obtain ⟨rfl, rfl, hw⟩ := hu.last hlast
    rw [endSeq_eq_reached, ← hw] at hseq
    have hs := hu.sender
    have hoff : (off u u.conn.seq).toNat = w := by
      rw [hseq]
      exact off_base_add u (Nat.lt_of_le_of_lt hu.le a.cmd.arg1L.isLt)
    rw [advance_of_last hlast hs.noDup hs.noRec]
    exact SenderKeeps.startRound { hs.keeps with } hc hl hs.cwndPos hoff hu.le
  · exact ⟨_, [], (advanceWaitsOrEndsTheRound u).1 hlast, (List.append_nil _).symm, nofun,
      .inl ⟨j, by simpa using hu.next hlast⟩⟩

/-- The oldest data segment in flight is the next chunk; once it is in place and acknowledged the rest of the round
stays as it is. -/
theorem RoundFlight.arrive {x : List Byte} (h : RoundFlight a w j (x :: segs) acks s) (hc : a.cfg.wf = true) :
    ∃ n, SegmentAt a w n x ∧
      ∀ y, AckAt a (w + n) y → RoundFlight a (w + n) (j + 1) segs (acks ++ [y]) s := by
  have hs := h.sender
  have hmss : 1 ≤ s.cfg.mss.toNat := hs.keeps.cfg ▸ (Params.wf_bounds hc).1
  have hsegs := h.segs
  obtain ⟨m, hm⟩ : ∃ m, s.snd.roundN.toNat - j = m + 1 := by
    cases hm : s.snd.roundN.toNat - j with
    | zero => rw [hm] at hsegs; cases hsegs
    | succ m => exact ⟨m, rfl⟩
  rw [hm, List.range'_succ, List.map_cons, List.cons.injEq] at hsegs
  obtain ⟨hx, hsegs⟩ := hsegs
  have hj : j < s.snd.roundN.toNat := by omega
  obtain ⟨hpos, hsmall, haddr, hseq⟩ := chunk_of_lt hmss (hs.roundCount ▸ hj)
  have hreach : reached s (j + 1) = w + chunkLen s j := by rw [reached_succ, ← h.position]
  rw [← h.position] at haddr hseq
  refine ⟨chunkLen s j, ?_, fun y hy => ?_⟩
  · exact {
      pos := hpos
      small := hs.keeps.cfg ▸ hsmall
      fits := hreach ▸ (reached_le s _).trans hs.fits
      length := by simp [hx, chunkTx, chunkSegment]
      verified := by
        rw [hx, State.ck, ← hs.keeps.cfg]
        exact verifyWith_sealWith _ _ (by simp)
      seq := by simp [hx, chunkTx, chunkSegment, hseq, hs.keeps.base]
      payload := by simp [hx, chunkTx, chunkSegment, haddr, hs.keeps.src, hs.keeps.mem] }
  · have hk := h.acked
    exact { h with
      acked := by omega
      arrived := hj
      position := hreach.symm
      segs := by rw [hsegs, show s.snd.roundN.toNat - (j + 1) = m by omega]
      acks := by
        rw [show j + 1 - s.snd.waitK.toNat = j - s.snd.waitK.toNat + 1 by omega, List.range'_1_concat]
        refine List.rel_append h.acks (.cons ?_ .nil)
        rw [Nat.add_sub_cancel' hk, hreach]
        exact hy }

/-- A round has a chunk or an acknowledgement in flight. -/
theorem RoundFlight.inFlight (h : RoundFlight a w j [] [] s) : False := by
  have hsegs := congrArg List.length h.segs
  have hacks := h.acks.length_eq
  have := h.sender.waiting
  simp only [List.length_nil, List.length_map, List.length_range'] at hsegs hacks
  omega

end

/-! ### The receiver -/

/-- A prefix that fits the buffer announces the total, and completes the RECV when all its bytes are there (R243). -/
theorem rcvPrefix_of_fits {b : List Byte} {s : State} (hv : s.status.rxTotalValid = false)
    (hmax : (prefixValue b).toNat ≤ s.rcv.max.toNat) (hw : s.prog.rxWritten.toNat ≤ (prefixValue b).toNat) :
    rcvPrefix b s = .next
      (if s.prog.rxWritten = prefixValue b then complete s.prog.rxWritten (announce b s) else announce b s) := by
  rw [rcvPrefix, hv, if_neg nofun]
  dsimp only
  rw [if_neg (Nat.not_lt.2 hmax), if_neg (Nat.not_lt.2 hw), apply_ite Host.Outcome.next]
  rfl

/-- An accepted segment whose place is lent is written, and completes the RECV when the total is there (R248). -/
theorem rcvAccept_of_lends {b : List Byte} {s : State} (h : Lends s .write (acceptAddr s) (payloadOf b).length) :
    rcvAccept b s = .next
      (if s.status.rxTotalValid = true ∧ (accepted b s).prog.rxWritten = s.prog.rxTotal
        then complete (accepted b s).prog.rxWritten (accepted b s) else accepted b s) := by
  rw [rcvAccept, memWrite_of_lends _ _ _ _ h, apply_ite Host.Outcome.next]
  rfl

/-- `b`'s RECV of what `a` sends, with `w` bytes in place; `pre` says that the length prefix is still to come. -/
structure Received (a b : State) (pre : Bool) (w : Nat) (s : State) : Prop where
  cfg : s.cfg = b.cfg
  lent : s.lent = b.lent
  count : s.count = b.count
  peer : s.conn.peerAddr = b.conn.peerAddr
  dst : s.rcv.dst = b.cmd.arg0L
  max : s.rcv.max = b.cmd.arg1L
  ack : s.conn.ack = a.conn.seq + BitVec.ofNat 32 w
  written : s.prog.rxWritten.toNat = w
  announced : s.status.rxTotalValid = !pre
  total : pre = false → s.prog.rxTotal = a.cmd.arg1L
  memory : s.mem.wf = true
  inPlace : ∀ i, i < w → s.mem.get (b.cmd.arg0L.toNat + i) = a.mem.get (a.cmd.arg0L.toNat + i)
  outside : ∀ x, x < b.cmd.arg0L.toNat ∨ b.cmd.arg0L.toNat + a.cmd.arg1L.toNat ≤ x → s.mem.get x = b.mem.get x

/-- The RECV waits for the prefix and for bytes still to come, and has completed when all are there. -/
structure ReceiverAt (a b : State) (pre : Bool) (w : Nat) (s : State) : Prop where
  received : Received a b pre w s
  waiting : pre = true ∨ w < a.cmd.arg1L.toNat → s.status.phase = .rcvWait
  completed : pre = false → w = a.cmd.arg1L.toNat → CompletedWith a.cmd.arg1L s

/-- The end of a receive rule: the RECV completes exactly when all the bytes are there. -/
theorem Received.settle {a b s : State} {w : Nat} {c : Prop} [Decidable c] (h : Received a b false w s)
    (hp : s.status.phase = .rcvWait) (hc : c ↔ w = a.cmd.arg1L.toNat) :
    ReceiverAt a b false w (if c then complete s.prog.rxWritten s else s) := by
  by_cases hw : w = a.cmd.arg1L.toNat
  · have hres : s.prog.rxWritten = a.cmd.arg1L := BitVec.eq_of_toNat_eq (h.written.trans hw)
    rw [if_pos (hc.2 hw), hres]
    exact ⟨{ h with }, by simp [hw], fun _ _ => complete_completedWith _ _⟩
  · rw [if_neg (hw ∘ hc.1)]
    exact ⟨h, fun _ => hp, fun _ hw' => absurd hw' hw⟩

/-- The premises of a lossless transfer from `a` to `b` (R226): the two ends agree, and the ranges are lent. -/
structure Transfer (a b : State) (ha hb : Word) : Prop where
  paramsA : a.cfg.wf = true
  paramsB : b.cfg.wf = true
  memory : b.mem.wf = true
  cwndPos : 1 ≤ a.conn.cwnd.toNat
  checksum : a.cfg.checksum = b.cfg.checksum
  mss : a.cfg.mss = b.cfg.mss
  peerA : a.conn.peerAddr = hb
  peerB : b.conn.peerAddr = ha
  seq : a.conn.seq = b.conn.ack
  fits : a.cmd.arg1L.toNat ≤ b.cmd.arg1L.toNat
  lendsA : Lends a .read a.cmd.arg0L.toNat a.cmd.arg1L.toNat
  lendsB : Lends b .write b.cmd.arg0L.toNat a.cmd.arg1L.toNat

section
variable {a b s : State} {ha hb : Word} {w : Nat}

/-- The length prefix gives the total (R243). -/
theorem ReceiverAt.takePrefix (h : ReceiverAt a b true w s) (hx : Transfer a b ha hb) (hw : w ≤ a.cmd.arg1L.toNat)
    (src : Word) :
    ∃ t, rxEvent (.datagram (lengthPrefix a.cmd.arg1L) src) s = .next t ∧ t.tx = s.tx ∧ ReceiverAt a b false w t := by
  obtain ⟨hr, hwait, -⟩ := h
  have hp := hwait (.inl rfl)
  have hval : prefixValue (lengthPrefix a.cmd.arg1L) = a.cmd.arg1L := rdBe32_be32 _
  let s0 : State := { s with recvBuffer := lengthPrefix a.cmd.arg1L, consecTo := 0 }
  have hfits : (prefixValue (lengthPrefix a.cmd.arg1L)).toNat ≤ s0.rcv.max.toNat := by
    rw [hval]
    exact hr.max ▸ hx.fits
  have hwritten : s0.prog.rxWritten.toNat ≤ (prefixValue (lengthPrefix a.cmd.arg1L)).toNat := by
    rw [hval]
    exact hr.written ▸ hw
  have hann : Received a b false w (announce (lengthPrefix a.cmd.arg1L) s0) :=
    { hr with announced := rfl, total := fun _ => hval }
  rw [rxEvent_datagram_small src (hr.cfg ▸ hx.paramsB) (by rw [lengthPrefix_length]; omega), dispatchEvent, hp]
  refine ⟨_, rcvPrefix_of_fits (s := s0) hr.announced hfits hwritten, by split <;> rfl, hann.settle hp ?_⟩
  rw [hval, ← hr.written]
  exact BitVec.toNat_inj.symm

/-- The segment of the next bytes meets every condition of R247. -/
theorem Received.acceptOk {n : Nat} {x : List Byte} (h : Received a b false w s) (hx : Transfer a b ha hb)
    (hs : SegmentAt a w n x) : acceptOk x s = true := by
  have hlen := hs.length
  have hck : verifyWith s.ck x = true := by rw [State.ck, h.cfg, ← hx.checksum]; exact hs.verified
  have hseq : seqOf x = s.conn.ack := hs.seq.trans h.ack.symm
  have hsize : wellSized s.cfg.mss x = true := by
    have := hs.pos
    have := hs.small
    rw [h.cfg, ← hx.mss, wellSized, Bool.and_eq_true, decide_eq_true_eq, decide_eq_true_eq]
    omega
  have hfits := hs.fits
  simp [Machine.acceptOk, hsize, hck, hseq, hlen, h.written, h.total, h.max, hfits, hfits.trans hx.fits]

/-- The place of the next bytes (R248). -/
theorem Received.acceptAddr {pre : Bool} (h : Received a b pre w s) : acceptAddr s = b.cmd.arg0L.toNat + w := by
  rw [Machine.acceptAddr, h.dst, h.written]

/-- The accepted segment puts `n` more bytes in place, and no other byte moves (R248). -/
theorem Received.accepted {n : Nat} {x : List Byte} (h : Received a b false w s) (hx : Transfer a b ha hb)
    (hs : SegmentAt a w n x) : Received a b false (w + n) (Machine.accepted x s) := by
  have hlen : x.length - 32 = n := by rw [hs.length, Nat.add_sub_cancel_left]
  have hpay : (payloadOf x).length = n := by rw [hs.payload, Memory.length_readBytes]
  have hfits := hs.fits
  have hL := a.cmd.arg1L.isLt
  have hend : b.cmd.arg0L.toNat + w + (payloadOf x).length ≤ 4294967296 := by
    have := hx.lendsB.1
    omega
  have hmem : (Machine.accepted x s).mem = s.mem.writeBytes (b.cmd.arg0L.toNat + w) (payloadOf x) := by
    rw [← h.acceptAddr]
    rfl
  exact { h with
    ack := by
      show s.conn.ack + BitVec.ofNat 32 (x.length - 32) = _
      rw [h.ack, hlen, BitVec.ofNat_add, BitVec.add_assoc]
    written := by
      show (s.prog.rxWritten + BitVec.ofNat 32 (x.length - 32)).toNat = _
      rw [hlen, BitVec.toNat_add, BitVec.toNat_ofNat, h.written]
      omega
    memory := hmem ▸ Memory.wf_writeBytes _ _ _ h.memory hend
    inPlace := fun i hi => by
      rw [hmem]
      rcases Nat.lt_or_ge i w with hlt | hge
      · rw [Memory.get_writeBytes_outside _ _ _ h.memory hend _ (by omega)]
        exact h.inPlace i hlt
      · have hin := Memory.get_writeBytes_inside _ _ _ h.memory hend (i - w) (by omega)
        rw [hs.payload, Memory.getD_readBytes _ _ _ _ (by omega)] at hin
        rwa [show b.cmd.arg0L.toNat + w + (i - w) = b.cmd.arg0L.toNat + i by omega,
          show a.cmd.arg0L.toNat + w + (i - w) = a.cmd.arg0L.toNat + i by omega, ← hs.payload] at hin
    outside := fun y hy => by
      rw [hmem, Memory.get_writeBytes_outside _ _ _ h.memory hend _ (by omega)]
      exact h.outside y hy }

/-- The segment of the next bytes is written after them and acknowledged (R248). -/
theorem ReceiverAt.accept {n : Nat} {x : List Byte} (h : ReceiverAt a b false w s) (hx : Transfer a b ha hb)
    (hs : SegmentAt a w n x) (src : Word) :
    ∃ t y, rxEvent (.datagram x src) s = .next t ∧ t.tx = s.tx ++ [⟨b.conn.peerAddr, y⟩] ∧ AckAt a (w + n) y ∧
      ReceiverAt a b false (w + n) t := by
  obtain ⟨hr, hwait, -⟩ := h
  have hlen := hs.length
  have hpos := hs.pos
  have hsmall := hs.small
  have hfits := hs.fits
  have hp := hwait (.inr (by omega))
  let s0 : State := { s with recvBuffer := x, consecTo := 0 }
  have h0 : Received a b false w s0 := { hr with }
  have h1 := h0.accepted hx hs
  have hdata : classify x = .data := (classify_data_iff x).2 (by omega)
  have hrx : rxEvent (.datagram x src) s = rcvAccept x s0 := by
    rw [rxEvent_datagram_small src (hr.cfg ▸ hx.paramsB) (by rw [hr.cfg, ← hx.mss]; omega), dispatchEvent, hp]
    show rxRcvWait (.datagram x src) _ = _
    simp only [rxRcvWait, hdata]
    exact if_pos (h0.acceptOk hx hs)
  have hlends : Lends s0 .write (acceptAddr s0) (payloadOf x).length := by
    rw [h0.acceptAddr, hs.payload, Memory.length_readBytes]
    exact (hx.lendsB.of_lent hr.lent).sub _ _ (Nat.le_add_right ..) (by omega)
  have hck : (accepted x s0).ck = a.ck := by rw [State.ck, h1.cfg, ← hx.checksum]; rfl
  rw [hrx, rcvAccept_of_lends hlends]
  refine ⟨_, buildHeader ctlAck (accepted x s0), rfl, ?_, ⟨?_, ?_, ?_⟩, h1.settle hp ?_⟩
  · rw [← hr.peer]
    split <;> rfl
  · rw [classify_buildHeader]
    decide
  · rw [← hck]
    exact verifyWith_buildHeader ..
  · rw [ackOf_buildHeader, h1.ack]
  · rw [h0.announced, h0.total rfl, ← h1.written]
    simp [BitVec.toNat_inj]

end

end Sys2Proof.Machine
end

section
/-! PROOFS. The run of a lossless transfer (R226, R277): each delivery keeps the invariant and uses up one of at most
`2 L + 1` deliveries, and a link without a delivery is at its end. -/

namespace Sys2Proof.Machine

/-- The length prefix of `a`'s SEND, while it is in flight. -/
def prefixInFlight (a : State) (pre : Bool) : List (List Byte) := if pre then [lengthPrefix a.cmd.arg1L] else []

/-- A link on which the transfer from `a` to `b` has put `w` bytes in place. -/
structure LinkAt (a b : State) (ha hb : Word) (pre : Bool) (w : Nat) (segs : List (List Byte)) (l : Link) : Prop where
  handleA : l.ha = ha
  handleB : l.hb = hb
  receiver : ReceiverAt a b pre w l.b
  inFlight : l.ab = prefixInFlight a pre ++ segs
  sender : SenderSide a w segs l.ba l.a

/-- The deliveries a transfer can still take: one for the prefix, two for each byte not yet in place, and one for each
acknowledgement in flight. -/
def deliveriesLeft (a : State) (pre : Bool) (w acks : Nat) : Nat :=
  pre.toNat + 2 * (a.cmd.arg1L.toNat - w) + acks

/-- The invariant of a transfer that can take at most `m` more deliveries. -/
def TransferInv (a b : State) (ha hb : Word) (m : Nat) (l : Link) : Prop :=
  ∃ pre w segs, LinkAt a b ha hb pre w segs l ∧ deliveriesLeft a pre w l.ba.length ≤ m

theorem SenderSide.le {a s : State} {w : Nat} {segs acks : List (List Byte)} (h : SenderSide a w segs acks s) :
    w ≤ a.cmd.arg1L.toNat := by
  obtain ⟨j, hr⟩ | hdone := h
  · exact hr.le
  · exact Nat.le_of_eq hdone.position

section
variable {a b : State} {ha hb : Word} {pre : Bool} {w m : Nat} {segs rest : List (List Byte)} {l : Link}
  {d : List Byte}

/-- B takes the oldest datagram toward it: the prefix, or the segment of the next bytes, which it acknowledges. -/
theorem LinkAt.toB (h : LinkAt a b ha hb pre w segs l) (hx : Transfer a b ha hb) (hd : l.ab = d :: rest) :
    l.b.status.phase ≠ .idle ∧ ∃ b', rxEvent (.datagram d l.ha) l.b = .next b' ∧
      ∃ pre' w' segs', LinkAt a b ha hb pre' w' segs'
          { l with b := b', ab := rest, ba := l.ba ++ sentTo l.ha l.b b' } ∧
        deliveriesLeft a pre' w' (l.ba ++ sentTo l.ha l.b b').length < deliveriesLeft a pre w l.ba.length := by
  obtain ⟨hhA, hhB, hrecv, hflight, hsend⟩ := h
  rw [hd] at hflight
  cases pre with
  | true =>
    obtain ⟨rfl, rfl⟩ := List.cons.inj hflight
    obtain ⟨b', hrx, htx, hrecv'⟩ := hrecv.takePrefix hx hsend.le l.ha
    have hsent : sentTo l.ha l.b b' = [] := by rw [sentTo, sentBy_of_tx_eq htx]; rfl
    refine ⟨by rw [hrecv.waiting (.inl rfl)]; nofun, b', hrx, ?_⟩
    rw [hsent, List.append_nil]
    refine ⟨false, w, rest, ⟨hhA, hhB, hrecv', rfl, hsend⟩, ?_⟩
    simp [deliveriesLeft]
  | false =>
    change d :: rest = segs at hflight
    subst hflight
    obtain ⟨j, hr⟩ | hdone := hsend
    · obtain ⟨n, hseg, hplace⟩ := hr.arrive hx.paramsA
      obtain ⟨b', y, hrx, htx, hy, hrecv'⟩ := hrecv.accept hx hseg l.ha
      have hpos := hseg.pos
      have hfits := hseg.fits
      have hsent : sentTo l.ha l.b b' = [y] := sentTo_all htx (by simp [hx.peerB, hhA])
      refine ⟨by rw [hrecv.waiting (.inr (by omega))]; nofun, b', hrx, ?_⟩
      rw [hsent, List.length_append]
      refine ⟨false, w + n, rest, ⟨hhA, hhB, hrecv', rfl, .inl ⟨_, hplace y hy⟩⟩, ?_⟩
      simp only [deliveriesLeft, List.length_singleton]
      omega
    · cases hdone.noSegs

/-- A takes the oldest datagram toward it, an in-order acknowledgement, and may start its next round. -/
theorem LinkAt.toA (h : LinkAt a b ha hb pre w segs l) (hx : Transfer a b ha hb) (hd : l.ba = d :: rest) :
    l.a.status.phase ≠ .idle ∧ ∃ a', rxEvent (.datagram d l.hb) l.a = .next a' ∧
      ∃ segs', LinkAt a b ha hb pre w segs' { l with a := a', ba := rest, ab := l.ab ++ sentTo l.hb l.a a' } := by
  obtain ⟨hhA, hhB, hrecv, hflight, hsend⟩ := h
  rw [hd] at hsend
  obtain ⟨j, hr⟩ | hdone := hsend
  · obtain ⟨a', sent, hrx, htx, hdest, hsend'⟩ := hr.ack hx.paramsA hx.lendsA l.hb
    have hsent : sentTo l.hb l.a a' = sent.map Tx.bytes :=
      sentTo_all htx fun t ht => by rw [hdest t ht, hx.peerA, hhB]
    refine ⟨by rw [hr.sender.phase]; nofun, a', hrx, segs ++ sent.map Tx.bytes, hhA, hhB, hrecv, ?_, hsend'⟩
    show l.ab ++ sentTo l.hb l.a a' = _
    rw [hsent, hflight, List.append_assoc]
  · cases hdone.noAcks

/-- Each delivery uses up one. -/
theorem TransferInv.delivers {r : Link} (h : TransferInv a b ha hb m l) (hx : Transfer a b ha hb)
    (hr : Link.Delivers l r) : ∃ m', m' < m ∧ TransferInv a b ha hb m' r := by
  obtain ⟨pre, w, segs, hl, hm⟩ := h
  cases hr with
  | toB d rest b' _ hd hs =>
    obtain ⟨-, b'', hs', pre', w', segs', hl', hlt⟩ := hl.toB hx hd
    obtain rfl : b'' = b' := by simpa [hs'] using hs
    exact ⟨_, Nat.lt_of_lt_of_le hlt hm, pre', w', segs', hl', Nat.le_refl _⟩
  | toA d rest a' _ hd hs =>
    obtain ⟨-, a'', hs', segs', hl'⟩ := hl.toA hx hd
    obtain rfl : a'' = a' := by simpa [hs'] using hs
    refine ⟨deliveriesLeft a pre w rest.length, ?_, pre, w, segs', hl', Nat.le_refl _⟩
    rw [hd] at hm
    exact hm

/-- A run of `n` deliveries uses up `n`. -/
theorem TransferInv.runs {n : Nat} {r : Link} (h : TransferInv a b ha hb m l) (hx : Transfer a b ha hb)
    (hr : Link.Runs n l r) : ∃ m', n + m' ≤ m ∧ TransferInv a b ha hb m' r := by
  induction hr generalizing m with
  | zero => exact ⟨m, by omega, h⟩
  | succ n l k r h1 _ ih =>
    obtain ⟨m₁, hm₁, hk⟩ := h.delivers hx h1
    obtain ⟨m₂, hm₂, hr⟩ := ih hk
    exact ⟨m₂, by omega, hr⟩

/-- A link without a delivery has nothing in flight, and the transfer is at its end. -/
theorem TransferInv.stuck (h : TransferInv a b ha hb m l) (hx : Transfer a b ha hb)
    (hno : ∀ r, ¬ Link.Delivers l r) :
    l.ab = [] ∧ l.ba = [] ∧ SenderDone a a.cmd.arg1L.toNat [] [] l.a ∧
      ReceiverAt a b false a.cmd.arg1L.toNat l.b := by
  obtain ⟨pre, w, segs, hl, -⟩ := h
  have hab : l.ab = [] := by
    cases hd : l.ab with
    | nil => rfl
    | cons d rest =>
      obtain ⟨hp, b', hs, -⟩ := hl.toB hx hd
      exact absurd (.toB l d rest b' hp hd hs) (hno _)
  have hba : l.ba = [] := by
    cases hd : l.ba with
    | nil => rfl
    | cons d rest =>
      obtain ⟨hp, a', hs, -⟩ := hl.toA hx hd
      exact absurd (.toA l d rest a' hp hd hs) (hno _)
  obtain ⟨-, -, hrecv, hflight, hsend⟩ := hl
  obtain ⟨hpre, rfl⟩ := List.append_eq_nil_iff.1 (hflight.symm.trans hab)
  obtain rfl : pre = false := by
    cases pre with
    | false => rfl
    | true => cases hpre
  rw [hba] at hsend
  obtain ⟨j, hr⟩ | hdone := hsend
  · exact hr.inFlight.elim
  · obtain rfl := hdone.position
    exact ⟨hab, hba, hdone, hrecv⟩

/-- After the issue of both commands the prefix and the first round are in flight. -/
theorem transferInv_issued {a1 b1 : State} (hx : Transfer a b ha hb) (hestA : a.status.connState = .established)
    (hestB : b.status.connState = .established) (hsend : exec .send a = .next a1) (hrecv : exec .recv b = .next b1) :
    TransferInv a b ha hb (2 * a.cmd.arg1L.toNat + 1) ⟨a1, b1, sentTo hb a a1, [], ha, hb⟩ := by
  rw [exec_send hestA] at hsend
  have hkeeps : SenderKeeps a (sendIssued a) := ⟨rfl, rfl, rfl, rfl, rfl, rfl, rfl, rfl⟩
  obtain ⟨t, sent, hstart, htx, hdest, hside⟩ := hkeeps.startRound hx.paramsA hx.lendsA hx.cwndPos
    (congrArg BitVec.toNat (off_sendIssued a)) (Nat.zero_le _)
  obtain rfl : t = a1 := by simpa [hstart] using hsend
  rw [sendIssued_tx_append] at htx
  have hsent : sentTo hb a t = lengthPrefix a.cmd.arg1L :: sent.map Tx.bytes :=
    sentTo_all htx fun d hd => by
      rcases List.mem_cons.1 hd with rfl | hd
      · exact hx.peerA
      · rw [hdest d hd, hx.peerA]
  rw [exec, execRecv, whenPre_pos (by rw [hestB]; rfl)] at hrecv
  cases hrecv
  refine ⟨true, 0, sent.map Tx.bytes, ⟨rfl, rfl, ⟨?_, fun _ => rfl, nofun⟩, hsent, hside⟩, ?_⟩
  · exact {
      cfg := rfl, lent := rfl, count := rfl, peer := rfl, dst := rfl, max := rfl
      ack := by
        show b.conn.ack = a.conn.seq + 0#32
        rw [hx.seq, BitVec.add_zero]
      written := rfl
      announced := rfl
      total := nofun
      memory := hx.memory
      inPlace := nofun
      outside := fun _ _ => rfl }
  · show 1 + 2 * (a.cmd.arg1L.toNat - 0) + 0 ≤ _
    omega

end

/-- Settles O59: the invariant holds after the issue of both commands and each delivery keeps it, so the run is at most
`2 L + 1` deliveries long, and where no delivery is possible both commands are complete. -/
theorem losslessTransferDeliversThePayload : Obligations.LosslessTransferDeliversThePayload := by
  intro a b a1 b1 ha hb hA hB hck hmss hpA hpB hseq _ _ _ _ hestA hestB hfits hlA hlB hsend hrecv n r hrun
  have hx : Transfer a b ha hb :=
    ⟨hA.params, hB.params, hB.memory, hA.cwndPos, hck, hmss, hpA, hpB, hseq, hfits, hlA, hlB⟩
  obtain ⟨m, hm, hinv⟩ := (transferInv_issued hx hestA hestB hsend hrecv).runs hx hrun
  refine ⟨by omega, fun hno => ?_⟩
  obtain ⟨hab, hba, hdone, hrecv⟩ := hinv.stuck hx hno
  obtain ⟨hphA, hdoneA, herrA, hresA⟩ := hdone.completed
  obtain ⟨hphB, hdoneB, herrB, hresB⟩ := hrecv.completed rfl rfl
  have hgot := hrecv.received
  have hack : r.b.conn.ack = a.conn.seq + a.cmd.arg1L := by
    rw [hgot.ack, BitVec.ofNat_toNat, BitVec.setWidth_eq]
  exact ⟨hab, hba, hphA, hdoneA, herrA, hresA, hphB, hdoneB, herrB, hresB, hdone.count, hgot.count, hdone.seq, hack,
    hgot.inPlace, hgot.outside⟩

end Sys2Proof.Machine
end

section
/-! PROOFS. The receive engine: the issue of RECV, what a TimedOut and each class of datagram do in RCV_WAIT, and the
order in which RECV fills its buffer (R240 to R251). -/

namespace Sys2Proof.Machine

/-! ### The issue of RECV (R240) -/

/-- Settles O28: the window of R240 is the smaller of its two lengths, and no other field is computed. -/
theorem recvOpensTheWindow : Obligations.RecvOpensTheWindow :=
  ⟨fun _ h => exec_of_not_pre (decide_eq_false h),
    fun _ h => ⟨_, minWindow_toNat _ _, whenPre_pos (i := .recv) (decide_eq_true h) _⟩⟩

/-! ### TimedOut (R242) -/

theorem rxEvent_timedOut_in_rcvWait {s : State} (hp : s.status.phase = .rcvWait) :
    rxEvent .timedOut s = rcvTimedOut s := by
  rw [rxEvent_timedOut, dispatchEvent, hp]
  rfl

/-- Settles O46: both ways out of a TimedOut, told apart by the retry bound. -/
theorem recvTimeoutCountsThenFails : Obligations.RecvTimeoutCountsThenFails := by
  intro s hp cnt s1
  have hs1 : countTimeout s = s1 := rfl
  have hcnt : s1.consecTo.toNat = cnt := satAdd32_toNat s.consecTo 1
  rw [rxEvent_timedOut_in_rcvWait hp, rcvTimedOut, hs1]
  refine ⟨fun hne hle => ?_, fun hlt => if_neg fun hx => ?_⟩
  · exact if_pos ((retriesExhausted_iff s1).2 ⟨hne, hcnt ▸ hle⟩)
  · obtain ⟨hne, hle⟩ := (retriesExhausted_iff s1).1 hx
    have hle : s.cfg.maxRetries.toNat ≤ cnt := hcnt ▸ hle
    exact hlt.elim hne (by omega)

/-! ### The length prefix (R243) -/

/-- A 4-byte datagram clears consec_to and runs the rule of the length prefix (R241). -/
theorem rxEvent_pfx_in_rcvWait {s : State} {b : List Byte} (src : Word) (hc : s.cfg.wf = true)
    (hp : s.status.phase = .rcvWait) (h4 : b.length = 4) :
    rxEvent (.datagram b src) s = rcvPrefix b { s with recvBuffer := b, consecTo := 0 } := by
  rw [rxEvent_datagram_small src hc (by omega), dispatchEvent, hp]
  simp only [rxRcvWait, (classify_pfx_iff b).2 h4]

/-- Settles O41: the checks of R243 in their order, each clause at the first one that its premises decide. -/
theorem prefixAnnouncesTheTotal : Obligations.PrefixAnnouncesTheTotal := by
  intro s b src hc hp h4 t w s0 s1
  rw [rxEvent_pfx_in_rcvWait src hc hp h4]
  refine ⟨fun hv => if_pos hv, fun hv => ?_⟩
  have hnew : ¬ s0.status.rxTotalValid = true := Bool.eq_false_iff.1 hv
  refine ⟨fun hmax => ?_, fun hmax hlow => ?_, fun hmax he => ?_, fun hmax hlt => ?_⟩
  · exact (if_neg hnew).trans (if_pos hmax)
  · exact (if_neg hnew).trans ((if_neg (Nat.not_lt.2 hmax)).trans (if_pos hlow))
  · rw [rcvPrefix_of_fits (s := s0) hv hmax (Nat.le_of_eq (congrArg BitVec.toNat he))]
    exact congrArg Host.Outcome.next (if_pos he)
  · have hne : w ≠ t := fun he => Nat.ne_of_lt hlt (congrArg BitVec.toNat he)
    rw [rcvPrefix_of_fits (s := s0) hv hmax (Nat.le_of_lt hlt)]
    exact congrArg Host.Outcome.next (if_neg hne)

/-! ### Control segments (R244 to R246) -/

/-- Settles O42: ROLE decides between the reply sequence and the record of the FIN. -/
theorem finAckEndsRecvByRole : Obligations.FinAckEndsRecvByRole := by
  intro s b src hc hp hb log q
  refine ⟨fun hr => ?_, rxEvent_fin_at_client hc hp hb⟩
  rw [rxEvent_fin_at_server hc hp hb hr, replyClose_eq]
  rfl

/-- An ACK clears consec_to and runs the ACK rule (R241). -/
theorem rxEvent_ack_in_rcvWait {s : State} {b : List Byte} (src : Word) (hc : s.cfg.wf = true)
    (hp : s.status.phase = .rcvWait) (hb : classify b = .ack) :
    rxEvent (.datagram b src) s = rcvAck b { s with recvBuffer := b, consecTo := 0 } := by
  rw [rxEvent_control src hc hb nofun nofun, dispatchEvent, hp]
  simp only [rxRcvWait, hb]

/-- Settles O43: an ACK by its two numbers, and the three classes that share one rule. -/
theorem recvConsumesControlSegments : Obligations.RecvConsumesControlSegments := by
  intro s b src hc hp s0 log
  refine ⟨fun hb hq ha => ?_, fun hb hne => ?_, fun hb => ?_⟩
  · rw [rxEvent_ack_in_rcvWait src hc hp hb, rcvAck, if_neg (by simp [hq, ha]), logCsumUnless_eq]
    rfl
  · rw [rxEvent_ack_in_rcvWait src hc hp hb, rcvAck, if_pos hne, logCsumUnless_eq]
    rfl
  · obtain hb | hb | hb := hb
    all_goals
      rw [rxEvent_control src hc hb nofun nofun, dispatchEvent, hp]
      simp only [rxRcvWait, hb]
      rfl

/-! ### Data (R247 to R249) -/

/-- A data datagram clears consec_to, and the checks of R247 decide between the rules of R248 and R249. -/
theorem rxEvent_data_in_rcvWait {s : State} {b : List Byte} (src : Word) (hp : s.status.phase = .rcvWait)
    (hlen : b.length ≤ s.cfg.maxDgram.toNat) (hb : classify b = .data) :
    rxEvent (.datagram b src) s =
      if acceptOk b s then rcvAccept b { withDatagram b s with consecTo := 0 }
      else rcvReject b { withDatagram b s with consecTo := 0 } := by
  rw [rxEvent_datagram src hlen, dispatchEvent, hp]
  simp only [rxRcvWait, hb]
  rfl

/-- The five checks of R247. -/
theorem acceptOk_iff (b : List Byte) (s : State) : acceptOk b s = true ↔
    (33 ≤ b.length ∧ b.length ≤ 32 + s.cfg.mss.toNat) ∧ verifyWith s.ck b = true ∧ seqOf b = s.conn.ack ∧
      s.prog.rxWritten.toNat + (b.length - 32) ≤ s.rcv.max.toNat ∧
      (s.status.rxTotalValid = false ∨ s.prog.rxWritten.toNat + (b.length - 32) ≤ s.prog.rxTotal.toNat) := by
  simp [acceptOk, wellSized, and_assoc]

theorem length_payloadOf (b : List Byte) : (payloadOf b).length = b.length - 32 := List.length_drop

theorem getD_payloadOf (b : List Byte) (i : Nat) : (payloadOf b).getD i 0 = byteAt b (32 + i) := by
  simp [payloadOf, byteAt, List.getD_eq_getElem?_getD]

/-- A datagram that passes R247 runs the rule of R248, with all of it in recv_buffer. -/
theorem rxEvent_accepted_in_rcvWait {s : State} {b : List Byte} (src : Word) (hc : s.cfg.wf = true)
    (hp : s.status.phase = .rcvWait) (hok : acceptOk b s = true) :
    rxEvent (.datagram b src) s = rcvAccept b { s with recvBuffer := b, consecTo := 0 } := by
  obtain ⟨⟨h33, hlen⟩, -⟩ := (acceptOk_iff b s).1 hok
  have := Params.wf_bounds hc
  rw [rxEvent_data_in_rcvWait src hp (by omega) ((classify_data_iff b).2 (by omega)), if_pos hok, withDatagram,
    List.take_of_length_le hlen]

/-- Settles O44: the datagram passes R247 and its place is lent, so its payload is written there, and the new value of
RX_WRITTEN decides whether the RECV is complete. -/
theorem inOrderDataIsWrittenAndAcknowledged : Obligations.InOrderDataIsWrittenAndAcknowledged := by
  intro s b src hc hm hp h33 hlen hv hq n w hmax htot dst hl
  let s0 : State := { s with recvBuffer := b, consecTo := 0 }
  have hok : acceptOk b s = true :=
    (acceptOk_iff b s).2 ⟨⟨h33, hlen⟩, hv, hq, hmax, (Bool.eq_false_or_eq_true _).symm.imp_right htot⟩
  have hpay : (payloadOf b).length = n := length_payloadOf b
  have hl0 : Lends s0 .write (acceptAddr s0) (payloadOf b).length := hpay ▸ hl
  have hend : dst + (payloadOf b).length ≤ 4294967296 := hl0.1
  have hw : s0.prog.rxWritten + BitVec.ofNat 32 (b.length - 32) = BitVec.ofNat 32 w := by
    rw [BitVec.ofNat_add, BitVec.ofNat_toNat, BitVec.setWidth_eq]
  have hwn : (BitVec.ofNat 32 w).toNat = w := hw ▸ (acceptOk_bounds hok).1
  refine ⟨s.mem.writeBytes dst (payloadOf b), minWindow s.cfg.initWindow (s.rcv.max - BitVec.ofNat 32 w),
    fun i hi => ?_, fun x hx => ?_, ?_, ?_⟩
  · rw [Memory.get_writeBytes_inside _ _ _ hm hend i (hpay.symm ▸ hi), getD_payloadOf]
  · exact Memory.get_writeBytes_outside _ _ _ hm hend x (hpay.symm ▸ hx)
  · rw [minWindow_toNat, BitVec.toNat_sub_of_le (by rw [BitVec.le_def, hwn]; exact hmax), hwn]
  · intro s1
    have hs1 : accepted b s0 = s1 := by
      rw [accepted, hw]
      rfl
    have hdone : s1.prog.rxWritten = s.prog.rxTotal ↔ w = s.prog.rxTotal.toNat := by
      rw [← BitVec.toNat_inj]
      exact Iff.of_eq (congrArg (· = _) hwn)
    rw [rxEvent_accepted_in_rcvWait src hc hp hok, rcvAccept_of_lends hl0, hs1]
    refine ⟨fun hk he => congrArg _ (if_pos ⟨hk, hdone.2 he⟩), fun hor => congrArg _ (if_neg ?_)⟩
    rintro ⟨hk, he⟩
    have hne : ¬ w < s.prog.rxTotal.toNat := Nat.not_lt.2 (Nat.le_of_eq (hdone.1 he).symm)
    exact hor.elim (Bool.eq_false_iff.1 · hk) hne

/-- Settles O45: the datagram fails R247, so the rule of R249 answers it and logs a well-sized one that fails verify. -/
theorem rejectedDataIsAnsweredWithADuplicateAck : Obligations.RejectedDataIsAnsweredWithADuplicateAck := by
  intro s b src hp hlen hb sized v w hno
  have hno : ¬ acceptOk b s = true := fun hok => hno ((acceptOk_iff b s).1 hok)
  have hquiet : (!wellSized s.cfg.mss b || verifyWith s.ck b) = true ↔ ¬ (sized ∧ v = false) := by
    simp [wellSized, sized, v, State.ck, imp_iff_not_or]
  rw [rxEvent_data_in_rcvWait src hp hlen hb, if_neg hno, rcvReject, logCsumUnless_eq]
  exact ⟨_, fun h => if_neg fun hx => hquiet.1 hx h, fun h => if_pos (hquiet.2 h), rfl⟩

/-! ### The order of the bytes (R251) -/

/-- From `s` to `t` ACK_NUMBER and RX_WRITTEN advance together inside the buffer, and memory changes only in the bytes
by which RX_WRITTEN advances. -/
structure Appends (s t : State) : Prop where
  ack : t.conn.ack - t.prog.rxWritten = s.conn.ack - s.prog.rxWritten
  grows : s.prog.rxWritten.toNat ≤ t.prog.rxWritten.toNat
  inBuffer : t.prog.rxWritten.toNat ≤ s.rcv.max.toNat
  rcv : t.rcv = s.rcv
  memory : ∀ x, t.mem.get x ≠ s.mem.get x →
    s.rcv.dst.toNat + s.prog.rxWritten.toNat ≤ x ∧ x < s.rcv.dst.toNat + t.prog.rxWritten.toNat

/-- `t` has received what `s` has: the registers of the received bytes, the buffer and memory are the same. -/
structure KeepsReceived (s t : State) : Prop where
  ack : t.conn.ack = s.conn.ack
  written : t.prog.rxWritten = s.prog.rxWritten
  rcv : t.rcv = s.rcv
  memory : t.mem = s.mem

theorem KeepsReceived.appends {s t : State} (h : KeepsReceived s t) (hi : RecvInv s) : Appends s t where
  ack := by rw [h.ack, h.written]
  grows := by rw [h.written]
  inBuffer := h.written ▸ hi.inBuffer
  rcv := h.rcv
  memory := fun x hx => absurd (congrArg (Memory.get · x) h.memory) hx

theorem rcvTimedOut_keepsReceived {s t : State} (h : rcvTimedOut s = .next t) : KeepsReceived s t := by
  unfold rcvTimedOut at h
  dsimp only at h
  split at h
  all_goals
    cases h
    exact ⟨rfl, rfl, rfl, rfl⟩

/-- Every branch of R243 announces a total at most. -/
theorem rcvPrefix_keepsReceived {b : List Byte} {s t : State} (h : rcvPrefix b s = .next t) : KeepsReceived s t := by
  unfold rcvPrefix at h
  dsimp only at h
  repeat' split at h
  all_goals
    cases h
    exact ⟨rfl, rfl, rfl, rfl⟩

/-- A FIN|ACK that does not enter the reply sequence is a client's (R244). -/
theorem rcvFinack_keepsReceived {b : List Byte} {s t : State} (h : rcvFinack b s = .next t)
    (ht : t.status.phase ≠ .waitFinalAck) : KeepsReceived s t := by
  cases hr : s.status.role with
  | server =>
    rw [rcvFinack_of_server b hr] at h
    cases h
    exact absurd rfl ht
  | client =>
    rw [rcvFinack_of_client b hr, logCsumUnless_eq] at h
    cases h
    exact ⟨rfl, rfl, rfl, rfl⟩

/-- An accepted segment is appended (R248), whether or not it completes the RECV. -/
theorem rcvAccept_appends {b : List Byte} {s t : State} (hm : Memory.wf s.mem = true) (hok : acceptOk b s = true)
    (h : rcvAccept b s = .next t) : Appends s t := by
  obtain ⟨hw, hmax, -⟩ := acceptOk_bounds hok
  obtain ⟨ha, -⟩ := rcvAccept_cases h
  have hacc : Appends s (accepted b s) := {
    ack := add_sub_add_right_eq_sub _ _ _
    grows := (Nat.le_add_right ..).trans_eq hw.symm
    inBuffer := hw.trans_le hmax
    rcv := rfl
    memory := fun x hx => by
      obtain ⟨hlow, hhigh⟩ := get_writeBytes_of_admitted ha hm x hx
      rw [acceptAddr] at hlow hhigh
      rw [length_payloadOf] at hhigh
      refine ⟨hlow, ?_⟩
      show x < _ + (s.prog.rxWritten + BitVec.ofNat 32 (b.length - 32)).toNat
      omega }
  have ht : t = accepted b s ∨ ∃ r, t = complete r (accepted b s) := by
    obtain ⟨-, h⟩ := memWrite_next h
    dsimp only at h
    split at h
    · cases h
      exact .inr ⟨_, rfl⟩
    · cases h
      exact .inl rfl
  obtain rfl | ⟨r, rfl⟩ := ht
  · exact hacc
  · exact { hacc with }

/-- Every event of RCV_WAIT but the FIN|ACK at a server appends to what is received (R241, R251). -/
theorem rxRcvWait_appends {e : RxEvent} {s t : State} (hm : Memory.wf s.mem = true) (hi : RecvInv s)
    (h : rxRcvWait e s = .next t) (ht : t.status.phase ≠ .waitFinalAck) : Appends s t := by
  cases e with
  | timedOut => exact (rcvTimedOut_keepsReceived h).appends hi
  | datagram b src =>
    have hi0 : RecvInv { s with consecTo := 0 } := { hi with }
    suffices ha : Appends { s with consecTo := 0 } t from { ha with }
    simp only [rxRcvWait] at h
    split at h
    case h_1 => exact (rcvPrefix_keepsReceived h).appends hi0
    case h_2 => exact (rcvFinack_keepsReceived h ht).appends hi0
    case h_3 =>
      obtain ⟨l, p, rfl⟩ := rcvAck_eq h
      exact KeepsReceived.appends ⟨rfl, rfl, rfl, rfl⟩ hi0
    case h_7 =>
      split at h
      · exact rcvAccept_appends hm ‹_› h
      · obtain ⟨l, rfl⟩ := rcvReject_eq h
        exact KeepsReceived.appends ⟨rfl, rfl, rfl, rfl⟩ hi0
    all_goals
      cases h
      exact KeepsReceived.appends ⟨rfl, rfl, rfl, rfl⟩ hi0

/-- Settles O56: recv_buffer, which the event fills first, is none of the registers the rule of RCV_WAIT reads. -/
theorem recvAppendsInOrder : Obligations.RecvAppendsInOrder := by
  intro s t e h hp ht hne
  suffices ha : Appends s t from ⟨ha.ack, ha.grows, ha.inBuffer, ha.rcv, ha.memory⟩
  have hd := h.storeDatagram e
  have hps : (storeDatagram e s).status.phase = .rcvWait := by rw [storeDatagram_status, hp]
  have ht := rxEvent_cases ht
  rw [dispatchEvent, hps] at ht
  have ha := rxRcvWait_appends hd.memory (hd.receiving hps) ht hne
  cases e with
  | timedOut => exact ha
  | datagram b src => exact { ha with }

end Sys2Proof.Machine
end

section
/-! PROOFS. What a command's outcome moves: the interrupt line (R298), and CONN_STATE, which a failure leaves alone
(R294). -/

namespace Sys2Proof.Machine

/-! ### The interrupt line (R298) -/

theorem irq_iff (s : State) : irq s = true ↔ s.irqEn = true ∧ s.status.done = true := Bool.and_eq_true_iff

@[simp] theorem irq_complete (r : Word) (s : State) : irq (complete r s) = s.irqEn := Bool.and_true _

@[simp] theorem irq_fail (c : ErrCode) (r : Word) (s : State) : irq (fail c r s) = s.irqEn := Bool.and_true _

@[simp] theorem irq_latch (op : BitVec 8) (s : State) : irq (latch op s) = false := Bool.and_false _

@[simp] theorem irq_writeCtrl (v : Word) (s : State) : irq (writeCtrl v s) = (v.getLsbD 0 && s.status.done) := rfl

@[simp] theorem irq_writeStatus (v : Word) (s : State) : irq (writeStatus v s) = (irq s && !v.getLsbD 1) :=
  (Bool.and_assoc ..).symm

/-- Settles O16: the line after an outcome, after a write to CTRL or STATUS, and at issue. -/
theorem interruptFollowsEnableAndDone : Obligations.InterruptFollowsEnableAndDone := by
  intro s r v c op
  refine ⟨irq_iff s, irq_complete r s, irq_fail c r s, fun hset => ?_, fun hclear => ?_, fun hone => ?_,
    irq_latch op s⟩
  · rw [irq_writeCtrl, hset, Bool.true_and]
  · rw [irq_writeCtrl, hclear, Bool.false_and]
  · rw [irq_writeStatus, hone, Bool.not_true, Bool.and_false]

/-! ### CONN_STATE and ERR (R294) -/

/-- When `t` has ERR = 1, its CONN_STATE is that of `s`. -/
def FailureKeepsConn (s t : State) : Prop :=
  t.status.err = true → t.status.connState = s.status.connState

/-- A step that shows no failure may move CONN_STATE. -/
theorem FailureKeepsConn.of_not_err {s t : State} (h : t.status.err = false) : FailureKeepsConn s t :=
  fun he => absurd (h.symm.trans he) Bool.false_ne_true

/-- Both outcomes of R14 leave CONN_STATE as the rule before them made it. -/
theorem Ends.connState {s t : State} (h : Ends s t) : t.status.connState = s.status.connState := by
  cases h <;> rfl

/-! ### RX events -/

theorem startRound_connState {s t : State} (h : startRound s = .next t) :
    t.status.connState = s.status.connState := by
  obtain ⟨-, rfl⟩ | ⟨-, u, rfl, rfl, -⟩ := startRound_cases h <;> rfl

theorem advance_connState {s t : State} (h : advance s = .next t) : t.status.connState = s.status.connState := by
  unfold advance at h
  dsimp only at h
  split at h
  · simpa using startRound_connState h
  · cases h
    rfl

/-- No event of SND_WAIT_ACK moves CONN_STATE (R208). -/
theorem rxSndWaitAck_connState {e : RxEvent} {s t : State} (h : rxSndWaitAck e s = .next t) :
    t.status.connState = s.status.connState := by
  cases e with
  | timedOut =>
    simp only [rxSndWaitAck, sndTimedOut] at h
    split at h
    · cases h
      rfl
    · exact (startRound_connState h :)
  | datagram b src =>
    simp only [rxSndWaitAck, sndAck] at h
    split at h
    · cases h
      rfl
    split at h
    · split at h <;> simpa using advance_connState h
    · simpa using advance_connState h

/-- In RCV_WAIT only the reply to a FIN|ACK moves CONN_STATE, and it shows no outcome (R175, R244). -/
theorem rxRcvWait_failureKeepsConn {e : RxEvent} {s t : State} (herr : s.status.err = false)
    (h : rxRcvWait e s = .next t) : FailureKeepsConn s t := by
  cases e with
  | timedOut =>
    obtain he | ⟨-, rfl⟩ := rcvTimedOut_cases h
    · exact fun _ => he.connState
    · exact fun _ => rfl
  | datagram b src =>
    simp only [rxRcvWait] at h
    split at h
    case h_1 =>
      obtain rfl | he | ⟨rfl, -⟩ := rcvPrefix_cases h
      · exact fun _ => rfl
      · exact fun _ => he.connState
      · exact fun _ => rfl
    case h_2 =>
      obtain ⟨l, rfl | ⟨-, he⟩⟩ := rcvFinack_cases h
      · exact .of_not_err herr
      · exact fun _ => he.connState
    case h_3 =>
      obtain ⟨l, p, rfl⟩ := rcvAck_eq h
      exact fun _ => rfl
    case h_7 =>
      split at h
      · obtain ⟨-, he | ⟨rfl, -⟩⟩ := rcvAccept_cases h
        · exact fun _ => he.connState
        · exact fun _ => rfl
      · obtain ⟨l, rfl⟩ := rcvReject_eq h
        exact fun _ => rfl
    all_goals
      cases h
      exact fun _ => rfl

/-- The rule of a phase that moves CONN_STATE completes its command, but for the reply to a FIN|ACK. -/
theorem dispatchEvent_failureKeepsConn {e : RxEvent} {s t : State}
    (herr : s.status.err = true → s.status.phase = .idle) (h : dispatchEvent e s = .next t) :
    FailureKeepsConn s t := by
  cases hp : s.status.phase <;> simp only [dispatchEvent, hp] at h
  case idle =>
    cases h
    exact fun _ => rfl
  case connWaitSynack =>
    obtain he | ⟨l, w, a, rfl⟩ := rxConnWaitSynack_cases h
    · exact fun _ => he.connState
    · exact .of_not_err rfl
  case accWaitSyn =>
    obtain rfl | he | ⟨l, p, w, a, rfl⟩ := rxAccWaitSyn_cases h
    · exact fun _ => rfl
    · exact fun _ => he.connState
    · exact fun _ => rfl
  case accWaitAck =>
    obtain he | ⟨l, w, rfl⟩ := rxAccWaitAck_cases h
    · exact fun _ => he.connState
    · exact .of_not_err rfl
  case sndWaitAck => exact fun _ => rxSndWaitAck_connState h
  case rcvWait =>
    refine rxRcvWait_failureKeepsConn (Bool.eq_false_iff.2 fun he => ?_) h
    exact nomatch hp.symm.trans (herr he)
  case waitFinalAck =>
    obtain he | ⟨l, rfl⟩ := rxWaitFinalAck_cases h
    · exact fun _ => he.connState
    · exact .of_not_err rfl
  case shdWaitAck =>
    obtain he | ⟨l, rfl⟩ := rxShdWaitAck_cases h
    · exact fun _ => he.connState
    · exact fun _ => rfl
  case shdWaitFin =>
    obtain he | ⟨l, a, rfl⟩ := rxShdWaitFin_cases h
    · exact fun _ => he.connState
    · exact .of_not_err rfl

/-! ### Commands -/

/-- The CONN_STATE check fails without moving CONN_STATE (R123). -/
theorem whenPre_failureKeepsConn {i : Instr} {s t : State} {body : Out} (h : whenPre i s body = .next t)
    (hb : body = .next t → FailureKeepsConn s t) : FailureKeepsConn s t := by
  obtain he | ⟨-, h⟩ := whenPre_ends h
  · exact fun _ => he.connState
  · exact hb h

/-- The issue part of a command that moves CONN_STATE completes (OPEN, LISTEN) or shows no outcome yet (SHUTDOWN). -/
theorem exec_failureKeepsConn {i : Instr} {s t : State} (herr : s.status.err = false) (h : exec i s = .next t) :
    FailureKeepsConn s t := by
  cases i <;> simp only [exec] at h
  case openConn | listen =>
    refine whenPre_failureKeepsConn h fun h => ?_
    cases h
    exact .of_not_err rfl
  case send => exact whenPre_failureKeepsConn h fun h _ => (startRound_connState h :)
  case shutdown =>
    obtain he | ⟨-, rfl | rfl⟩ := execShutdown_cases h
    · exact fun _ => he.connState
    · exact .of_not_err herr
    · exact .of_not_err herr
  case buildHeader => exact fun _ => (execBuildHeader_ends h).connState
  case sealSegment => exact fun _ => (execSeal_ends h).connState
  case verify => exact fun _ => (execVerify_ends h).connState
  case classify => exact fun _ => (execClassify_ends h).connState
  case connect | accept | recv =>
    refine whenPre_failureKeepsConn h fun h => ?_
    cases h
    exact fun _ => rfl

/-! ### The step -/

/-- Issue clears ERR before the command runs, an RX event acts only in a wait phase, where ERR is 0, reset leaves ERR
at 0, and no other event writes CONN_STATE. -/
theorem applyInput_failureKeepsConn {i : Input} {s t : State} (herr : s.status.err = true → s.status.phase = .idle)
    (h : applyInput i s = .next t) : FailureKeepsConn s t := by
  obtain ⟨w, -, -, h⟩ | ⟨e, -, h⟩ | ⟨-, rfl⟩ | ⟨u, -, rfl⟩ := applyInput_cases h
  · obtain rfl | ⟨i, -, -, h⟩ := issue_cases h
    · exact fun _ => rfl
    · exact (exec_failureKeepsConn (latch_status_err _ _) h :)
  · have hd := dispatchEvent_failureKeepsConn (by simpa using herr) (rxEvent_cases h)
    simpa [FailureKeepsConn] using hd
  · exact .of_not_err rfl
  · exact fun _ => rfl

/-- Settles O53: a step that takes no event changes nothing, and of EngineInv the event needs only that ERR is 0 in a
wait phase. -/
theorem failedCommandLeavesTheConnectionState : Obligations.FailedCommandLeavesTheConnectionState := by
  intro s t hinv ht
  obtain ⟨-, rfl⟩ | ⟨i, left, -, ht⟩ := step_cases ht
  · exact fun _ => rfl
  · exact applyInput_failureKeepsConn (s := { s with inputs := left }) hinv.errIdle ht

end Sys2Proof.Machine
end

section
/-! PROOFS. Hardware reset (R320, R321): the step that takes it, and what it leaves in every row of R320. -/

namespace Sys2Proof.Machine

/-- R321: reset is one transition, whatever the phase, and no rule of the wait it interrupts runs. -/
theorem step_hwReset {s : State} {left : List Input} (h : takeNext s.status.phase s.inputs = some (.hwReset, left)) :
    step s = .next (hardwareReset { s with inputs := left }) := step_of_takeNext h

/-- CTRL and DONE are both 0 after reset, so the interrupt line is low (R298). -/
@[simp] theorem irq_hardwareReset (s : State) : irq (hardwareReset s) = false := rfl

/-- Settles O18: the step is `hardwareReset`. It keeps what lies outside the block (the parameters, the datagrams handed
over, the events to come, host memory), and every other row is the row of `State.resetWith` for those parameters. -/
theorem hardwareResetSetsEveryRow : Obligations.HardwareResetSetsEveryRow := by
  intro s left h
  refine ⟨_, step_hwReset h, hardwareReset_cfg _, ?arg0, ?arg1, ?irqEn, ?result, ?status, ?conn, ?count, ?prog, ?cmd,
    ?snd, ?rcv, ?consecTo, irq_hardwareReset _, hardwareReset_tx _, hardwareReset_inputs _, hardwareReset_mem _⟩
  all_goals rfl

end Sys2Proof.Machine
end
